-- ==== Sys2Proof/Word.lean ====
section
/-! DEFINITION. The word types of the machine (spec/10_state.md R30, R45, R50; spec/00_scope.md R12). -/

namespace Sys2Proof

/-- One byte of memory or an 8-bit register alias. -/
abbrev Byte := BitVec 8

/-- A 16-bit operand, and the width of the x87 status, control and tag words (R12). -/
abbrev Half := BitVec 16

/-- A general register, an address, the instruction pointer or the flags word (R12). -/
abbrev Word := BitVec 32

/-- The IEEE 754 binary64 pattern held by one x87 slot (R45). -/
abbrev F64 := BitVec 64

/-- A 3-bit register field: the index of a general register (R30), of an 8- or 16-bit alias
(R33, R34) or of an x87 register ST(i) (R47). -/
abbrev Reg := BitVec 3

end Sys2Proof
end

