-- ==== Sys2Proof/Syntax.lean ====
section
/-! DEFINITION. The syntax of the machine: the rows of spec/opcode_table.json (`Instr`), the operand forms
of spec/30_encoding.md R110 to R121, and the decoded record of R150.

`Instr` is R150's `row`. The operand fields of the record (`reg`, `rm`, `imm`, `rel`, `moffs`) are the
structure `Operands`, which the machine holds while the instruction executes (log 6): Lean's runtime
represents no type of more than 244 constructors that carry fields, and the table has 377 rows. -/

namespace Sys2Proof

/-- The segment override in force (R55): ES, CS, SS and DS prefixes leave it alone (R101). -/
inductive Seg where
  | none
  | fs
  | gs
  deriving DecidableEq, Repr, Inhabited

/-- The repeat prefix in force (R55): F3 is REPE, F2 is REPNE (R101). -/
inductive Rep where
  | none
  | repe
  | repne
  deriving DecidableEq, Repr, Inhabited

/-- What the prefix scan leaves (R55, R101). -/
structure Prefixes where
  seg : Seg
  opsizeOverride : Bool
  rep : Rep
  deriving DecidableEq, Repr, Inhabited

/-- The displacement of a memory operand with a base (R112, R117). -/
inductive Disp where
  /-- mod = 0: no displacement byte. -/
  | none
  /-- mod = 1: one byte, sign-extended. -/
  | disp8 (d : Byte)
  /-- mod = 2: four bytes. -/
  | disp32 (d : Word)
  deriving DecidableEq, Repr, Inhabited

/-- A ModRM memory operand (R112 to R115), one constructor per shape of the tables. -/
inductive MemOp where
  /-- mod = 0, rm = 5: `[disp32]`. -/
  | abs (d : Word)
  /-- rm other than 4: `[x[base] + disp]`. -/
  | base (b : Reg) (d : Disp)
  /-- A SIB byte with a base register; index 4 means no index (R115). -/
  | sib (scale : BitVec 2) (index b : Reg) (d : Disp)
  /-- A SIB byte with mod = 0 and base = 5: no base, a disp32 follows (R114). -/
  | sibAbs (scale : BitVec 2) (index : Reg) (d : Word)
  deriving DecidableEq, Repr, Inhabited

/-- The `rm` operand of the decoded record (R111, R150): a register or memory. -/
inductive RM where
  | reg (r : Reg)
  | mem (m : MemOp)
  deriving DecidableEq, Repr, Inhabited

/-- The operand fields of the decoded record (R150). A field the instruction's format does not have is 0
(`rm` is register 0). -/
structure Operands where
  /-- ModRM reg, or the low three opcode bits of a +r form. -/
  reg : Reg
  /-- The ModRM operand; ST(i) is `.reg i`. -/
  rm : RM
  /-- The immediate, after the extension of R130. -/
  imm : Word
  /-- The relative offset, sign-extended (R130). -/
  rel : Word
  /-- The absolute offset of MOV A0 to A3. -/
  moffs : Word
  deriving DecidableEq, Repr, Inhabited

/-- The opcode key (R104, R500): one byte, or 0x0F and one byte. -/
inductive OpKey where
  | one (b : Byte)
  | two (b : Byte)
  deriving DecidableEq, Repr, Inhabited

/-- The rows of spec/opcode_table.json, in the table's order: mnemonic, encoding, rule. -/
inductive Instr where
  /-- ADD r/m8, r8 (00 /r): R245. -/
  | addRm8R8
  /-- ADD r/m32, r32 (01 /r): R245. -/
  | addRm32R32
  /-- ADD r8, r/m8 (02 /r): R245. -/
  | addR8Rm8
  /-- ADD r32, r/m32 (03 /r): R245. -/
  | addR32Rm32
  /-- ADD AL, ib (04 ib): R245. -/
  | addAlIb
  /-- ADD EAX, id (05 id): R245. -/
  | addEaxId
  /-- OR r/m8, r8 (08 /r): R282. -/
  | orRm8R8
  /-- OR r/m32, r32 (09 /r): R282. -/
  | orRm32R32
  /-- OR r8, r/m8 (0A /r): R282. -/
  | orR8Rm8
  /-- OR r32, r/m32 (0B /r): R282. -/
  | orR32Rm32
  /-- OR AL, ib (0C ib): R282. -/
  | orAlIb
  /-- OR EAX, id (0D id): R282. -/
  | orEaxId
  /-- ADC r/m8, r8 (10 /r): R246. -/
  | adcRm8R8
  /-- ADC r/m32, r32 (11 /r): R246. -/
  | adcRm32R32
  /-- ADC r8, r/m8 (12 /r): R246. -/
  | adcR8Rm8
  /-- ADC r32, r/m32 (13 /r): R246. -/
  | adcR32Rm32
  /-- ADC AL, ib (14 ib): R246. -/
  | adcAlIb
  /-- ADC EAX, id (15 id): R246. -/
  | adcEaxId
  /-- SBB r/m8, r8 (18 /r): R248. -/
  | sbbRm8R8
  /-- SBB r/m32, r32 (19 /r): R248. -/
  | sbbRm32R32
  /-- SBB r8, r/m8 (1A /r): R248. -/
  | sbbR8Rm8
  /-- SBB r32, r/m32 (1B /r): R248. -/
  | sbbR32Rm32
  /-- SBB AL, ib (1C ib): R248. -/
  | sbbAlIb
  /-- SBB EAX, id (1D id): R248. -/
  | sbbEaxId
  /-- AND r/m8, r8 (20 /r): R281. -/
  | andRm8R8
  /-- AND r/m32, r32 (21 /r): R281. -/
  | andRm32R32
  /-- AND r8, r/m8 (22 /r): R281. -/
  | andR8Rm8
  /-- AND r32, r/m32 (23 /r): R281. -/
  | andR32Rm32
  /-- AND AL, ib (24 ib): R281. -/
  | andAlIb
  /-- AND EAX, id (25 id): R281. -/
  | andEaxId
  /-- SUB r/m8, r8 (28 /r): R247. -/
  | subRm8R8
  /-- SUB r/m32, r32 (29 /r): R247. -/
  | subRm32R32
  /-- SUB r8, r/m8 (2A /r): R247. -/
  | subR8Rm8
  /-- SUB r32, r/m32 (2B /r): R247. -/
  | subR32Rm32
  /-- SUB AL, ib (2C ib): R247. -/
  | subAlIb
  /-- SUB EAX, id (2D id): R247. -/
  | subEaxId
  /-- XOR r/m8, r8 (30 /r): R283. -/
  | xorRm8R8
  /-- XOR r/m32, r32 (31 /r): R283. -/
  | xorRm32R32
  /-- XOR r8, r/m8 (32 /r): R283. -/
  | xorR8Rm8
  /-- XOR r32, r/m32 (33 /r): R283. -/
  | xorR32Rm32
  /-- XOR AL, ib (34 ib): R283. -/
  | xorAlIb
  /-- XOR EAX, id (35 id): R283. -/
  | xorEaxId
  /-- CMP r/m8, r8 (38 /r): R249. -/
  | cmpRm8R8
  /-- CMP r/m32, r32 (39 /r): R249. -/
  | cmpRm32R32
  /-- CMP r8, r/m8 (3A /r): R249. -/
  | cmpR8Rm8
  /-- CMP r32, r/m32 (3B /r): R249. -/
  | cmpR32Rm32
  /-- CMP AL, ib (3C ib): R249. -/
  | cmpAlIb
  /-- CMP EAX, id (3D id): R249. -/
  | cmpEaxId
  /-- INC r32 (40+r): R250. -/
  | incR32
  /-- DEC r32 (48+r): R251. -/
  | decR32
  /-- PUSH r32 (50+r): R321. -/
  | pushR32
  /-- POP r32 (58+r): R324. -/
  | popR32
  /-- PUSHAD (60): R326. -/
  | pushad
  /-- POPAD (61): R327. -/
  | popad
  /-- PUSH id (68 id): R322. -/
  | pushId
  /-- IMUL r32, r/m32, id (69 /r id): R256. -/
  | imulR32Rm32Id
  /-- PUSH ib (6A ib_sext): R322. -/
  | pushIb
  /-- IMUL r32, r/m32, ib (6B /r ib_sext): R256. -/
  | imulR32Rm32Ib
  /-- JO rel8 (70 rel8): R345. -/
  | joRel8
  /-- JNO rel8 (71 rel8): R345. -/
  | jnoRel8
  /-- JB rel8 (72 rel8): R345. -/
  | jbRel8
  /-- JAE rel8 (73 rel8): R345. -/
  | jaeRel8
  /-- JE rel8 (74 rel8): R345. -/
  | jeRel8
  /-- JNE rel8 (75 rel8): R345. -/
  | jneRel8
  /-- JBE rel8 (76 rel8): R345. -/
  | jbeRel8
  /-- JA rel8 (77 rel8): R345. -/
  | jaRel8
  /-- JS rel8 (78 rel8): R345. -/
  | jsRel8
  /-- JNS rel8 (79 rel8): R345. -/
  | jnsRel8
  /-- JP rel8 (7A rel8): R341. -/
  | jpRel8
  /-- JNP rel8 (7B rel8): R341. -/
  | jnpRel8
  /-- JL rel8 (7C rel8): R345. -/
  | jlRel8
  /-- JGE rel8 (7D rel8): R345. -/
  | jgeRel8
  /-- JLE rel8 (7E rel8): R345. -/
  | jleRel8
  /-- JG rel8 (7F rel8): R345. -/
  | jgRel8
  /-- ADD r/m8, ib (80 /0 ib): R245. -/
  | addRm8Ib
  /-- ADD r/m32, id (81 /0 id): R245. -/
  | addRm32Id
  /-- ADD r/m32, ib (83 /0 ib_sext): R245. -/
  | addRm32Ib
  /-- OR r/m8, ib (80 /1 ib): R282. -/
  | orRm8Ib
  /-- OR r/m32, id (81 /1 id): R282. -/
  | orRm32Id
  /-- OR r/m32, ib (83 /1 ib_sext): R282. -/
  | orRm32Ib
  /-- ADC r/m8, ib (80 /2 ib): R246. -/
  | adcRm8Ib
  /-- ADC r/m32, id (81 /2 id): R246. -/
  | adcRm32Id
  /-- ADC r/m32, ib (83 /2 ib_sext): R246. -/
  | adcRm32Ib
  /-- SBB r/m8, ib (80 /3 ib): R248. -/
  | sbbRm8Ib
  /-- SBB r/m32, id (81 /3 id): R248. -/
  | sbbRm32Id
  /-- SBB r/m32, ib (83 /3 ib_sext): R248. -/
  | sbbRm32Ib
  /-- AND r/m8, ib (80 /4 ib): R281. -/
  | andRm8Ib
  /-- AND r/m32, id (81 /4 id): R281. -/
  | andRm32Id
  /-- AND r/m32, ib (83 /4 ib_sext): R281. -/
  | andRm32Ib
  /-- SUB r/m8, ib (80 /5 ib): R247. -/
  | subRm8Ib
  /-- SUB r/m32, id (81 /5 id): R247. -/
  | subRm32Id
  /-- SUB r/m32, ib (83 /5 ib_sext): R247. -/
  | subRm32Ib
  /-- XOR r/m8, ib (80 /6 ib): R283. -/
  | xorRm8Ib
  /-- XOR r/m32, id (81 /6 id): R283. -/
  | xorRm32Id
  /-- XOR r/m32, ib (83 /6 ib_sext): R283. -/
  | xorRm32Ib
  /-- CMP r/m8, ib (80 /7 ib): R249. -/
  | cmpRm8Ib
  /-- CMP r/m32, id (81 /7 id): R249. -/
  | cmpRm32Id
  /-- CMP r/m32, ib (83 /7 ib_sext): R249. -/
  | cmpRm32Ib
  /-- TEST r/m8, r8 (84 /r): R284. -/
  | testRm8R8
  /-- TEST r/m32, r32 (85 /r): R284. -/
  | testRm32R32
  /-- MOV r/m8, r8 (88 /r): R201. -/
  | movRm8R8
  /-- MOV r/m32, r32 (89 /r): R201. -/
  | movRm32R32
  /-- MOV r8, r/m8 (8A /r): R201. -/
  | movR8Rm8
  /-- MOV r32, r/m32 (8B /r): R201. -/
  | movR32Rm32
  /-- LEA r32, m (8D /r): R206. -/
  | leaR32M
  /-- POP r/m32 (8F /0): R325. -/
  | popRm32
  /-- NOP (90): R355. -/
  | nop
  /-- CWDE (98): R209. -/
  | cwde
  /-- CDQ (99): R208. -/
  | cdq
  /-- WAIT (9B): R356. -/
  | wait
  /-- MOV AL, moffs8 (A0 moffs32): R203. -/
  | movAlMoffs8
  /-- MOV EAX, moffs32 (A1 moffs32): R203. -/
  | movEaxMoffs32
  /-- MOV moffs8, AL (A2 moffs32): R203. -/
  | movMoffs8Al
  /-- MOV moffs32, EAX (A3 moffs32): R203. -/
  | movMoffs32Eax
  /-- MOVSB (A4): R382. -/
  | movsb
  /-- MOVSD (A5): R382. -/
  | movsd
  /-- CMPSB (A6): R386. -/
  | cmpsb
  /-- CMPSD (A7): R386. -/
  | cmpsd
  /-- TEST AL, ib (A8 ib): R284. -/
  | testAlIb
  /-- TEST EAX, id (A9 id): R284. -/
  | testEaxId
  /-- STOSB (AA): R383. -/
  | stosb
  /-- STOSD (AB): R383. -/
  | stosd
  /-- LODSB (AC): R384. -/
  | lodsb
  /-- LODSD (AD): R384. -/
  | lodsd
  /-- SCASB (AE): R385. -/
  | scasb
  /-- SCASD (AF): R385. -/
  | scasd
  /-- MOV r8, ib (B0+r ib): R202. -/
  | movR8Ib
  /-- MOV r32, id (B8+r id): R202. -/
  | movR32Id
  /-- ROL r/m8, ib (C0 /0 ib): R293. -/
  | rolRm8Ib
  /-- ROR r/m8, ib (C0 /1 ib): R294. -/
  | rorRm8Ib
  /-- RCL r/m8, ib (C0 /2 ib): R295. -/
  | rclRm8Ib
  /-- RCR r/m8, ib (C0 /3 ib): R296. -/
  | rcrRm8Ib
  /-- SHL r/m8, ib (C0 /4 ib): R297. -/
  | shlRm8Ib
  /-- SHR r/m8, ib (C0 /5 ib): R298. -/
  | shrRm8Ib
  /-- SAR r/m8, ib (C0 /7 ib): R299. -/
  | sarRm8Ib
  /-- ROL r/m32, ib (C1 /0 ib): R293. -/
  | rolRm32Ib
  /-- ROR r/m32, ib (C1 /1 ib): R294. -/
  | rorRm32Ib
  /-- RCL r/m32, ib (C1 /2 ib): R295. -/
  | rclRm32Ib
  /-- RCR r/m32, ib (C1 /3 ib): R296. -/
  | rcrRm32Ib
  /-- SHL r/m32, ib (C1 /4 ib): R297. -/
  | shlRm32Ib
  /-- SHR r/m32, ib (C1 /5 ib): R298. -/
  | shrRm32Ib
  /-- SAR r/m32, ib (C1 /7 ib): R299. -/
  | sarRm32Ib
  /-- ROL r/m8, 1 (D0 /0): R293. -/
  | rolRm8One
  /-- ROR r/m8, 1 (D0 /1): R294. -/
  | rorRm8One
  /-- RCL r/m8, 1 (D0 /2): R295. -/
  | rclRm8One
  /-- RCR r/m8, 1 (D0 /3): R296. -/
  | rcrRm8One
  /-- SHL r/m8, 1 (D0 /4): R297. -/
  | shlRm8One
  /-- SHR r/m8, 1 (D0 /5): R298. -/
  | shrRm8One
  /-- SAR r/m8, 1 (D0 /7): R299. -/
  | sarRm8One
  /-- ROL r/m32, 1 (D1 /0): R293. -/
  | rolRm32One
  /-- ROR r/m32, 1 (D1 /1): R294. -/
  | rorRm32One
  /-- RCL r/m32, 1 (D1 /2): R295. -/
  | rclRm32One
  /-- RCR r/m32, 1 (D1 /3): R296. -/
  | rcrRm32One
  /-- SHL r/m32, 1 (D1 /4): R297. -/
  | shlRm32One
  /-- SHR r/m32, 1 (D1 /5): R298. -/
  | shrRm32One
  /-- SAR r/m32, 1 (D1 /7): R299. -/
  | sarRm32One
  /-- ROL r/m8, CL (D2 /0): R293. -/
  | rolRm8Cl
  /-- ROR r/m8, CL (D2 /1): R294. -/
  | rorRm8Cl
  /-- RCL r/m8, CL (D2 /2): R295. -/
  | rclRm8Cl
  /-- RCR r/m8, CL (D2 /3): R296. -/
  | rcrRm8Cl
  /-- SHL r/m8, CL (D2 /4): R297. -/
  | shlRm8Cl
  /-- SHR r/m8, CL (D2 /5): R298. -/
  | shrRm8Cl
  /-- SAR r/m8, CL (D2 /7): R299. -/
  | sarRm8Cl
  /-- ROL r/m32, CL (D3 /0): R293. -/
  | rolRm32Cl
  /-- ROR r/m32, CL (D3 /1): R294. -/
  | rorRm32Cl
  /-- RCL r/m32, CL (D3 /2): R295. -/
  | rclRm32Cl
  /-- RCR r/m32, CL (D3 /3): R296. -/
  | rcrRm32Cl
  /-- SHL r/m32, CL (D3 /4): R297. -/
  | shlRm32Cl
  /-- SHR r/m32, CL (D3 /5): R298. -/
  | shrRm32Cl
  /-- SAR r/m32, CL (D3 /7): R299. -/
  | sarRm32Cl
  /-- RET iw (C2 iw): R349. -/
  | retIw
  /-- RET (C3): R348. -/
  | ret
  /-- LES r32, m (C4 /r): R207. -/
  | lesR32M
  /-- LDS r32, m (C5 /r): R207. -/
  | ldsR32M
  /-- MOV r/m8, ib (C6 /0 ib): R202. -/
  | movRm8Ib
  /-- MOV r/m32, id (C7 /0 id): R202. -/
  | movRm32Id
  /-- LEAVE (C9): R328. -/
  | leave
  /-- INT3 (CC): R353. -/
  | int3
  /-- INT ib (CD ib): R352. -/
  | intIb
  /-- CALL rel32 (E8 rel32): R346. -/
  | callRel32
  /-- JMP rel32 (E9 rel32): R343. -/
  | jmpRel32
  /-- JMP rel8 (EB rel8): R343. -/
  | jmpRel8
  /-- HLT (F4): R354. -/
  | hlt
  /-- CMC (F5): R359. -/
  | cmc
  /-- TEST r/m8, ib (F6 /0 ib): R284. -/
  | testRm8Ib
  /-- NOT r/m8 (F6 /2): R285. -/
  | notRm8
  /-- NEG r/m8 (F6 /3): R252. -/
  | negRm8
  /-- MUL r/m8 (F6 /4): R253. -/
  | mulRm8
  /-- IMUL r/m8 (F6 /5): R254. -/
  | imulRm8
  /-- DIV r/m8 (F6 /6): R257. -/
  | divRm8
  /-- IDIV r/m8 (F6 /7): R258. -/
  | idivRm8
  /-- TEST r/m32, id (F7 /0 id): R284. -/
  | testRm32Id
  /-- NOT r/m32 (F7 /2): R285. -/
  | notRm32
  /-- NEG r/m32 (F7 /3): R252. -/
  | negRm32
  /-- MUL r/m32 (F7 /4): R253. -/
  | mulRm32
  /-- IMUL r/m32 (F7 /5): R254. -/
  | imulRm32
  /-- DIV r/m32 (F7 /6): R257. -/
  | divRm32
  /-- IDIV r/m32 (F7 /7): R258. -/
  | idivRm32
  /-- CLC (F8): R357. -/
  | clc
  /-- STC (F9): R358. -/
  | stc
  /-- CLD (FC): R360. -/
  | cld
  /-- STD (FD): R361. -/
  | std
  /-- INC r/m8 (FE /0): R250. -/
  | incRm8
  /-- DEC r/m8 (FE /1): R251. -/
  | decRm8
  /-- INC r/m32 (FF /0): R250. -/
  | incRm32
  /-- DEC r/m32 (FF /1): R251. -/
  | decRm32
  /-- CALL r/m32 (FF /2): R347. -/
  | callRm32
  /-- JMP r/m32 (FF /4): R344. -/
  | jmpRm32
  /-- PUSH r/m32 (FF /6): R323. -/
  | pushRm32
  /-- NOP r/m32 (0F 1F /0): R355. -/
  | nopRm32
  /-- CMOVO r32, r/m32 (0F 40 /r): R351. -/
  | cmovoR32Rm32
  /-- CMOVNO r32, r/m32 (0F 41 /r): R351. -/
  | cmovnoR32Rm32
  /-- CMOVB r32, r/m32 (0F 42 /r): R351. -/
  | cmovbR32Rm32
  /-- CMOVAE r32, r/m32 (0F 43 /r): R351. -/
  | cmovaeR32Rm32
  /-- CMOVE r32, r/m32 (0F 44 /r): R351. -/
  | cmoveR32Rm32
  /-- CMOVNE r32, r/m32 (0F 45 /r): R351. -/
  | cmovneR32Rm32
  /-- CMOVBE r32, r/m32 (0F 46 /r): R351. -/
  | cmovbeR32Rm32
  /-- CMOVA r32, r/m32 (0F 47 /r): R351. -/
  | cmovaR32Rm32
  /-- CMOVS r32, r/m32 (0F 48 /r): R351. -/
  | cmovsR32Rm32
  /-- CMOVNS r32, r/m32 (0F 49 /r): R351. -/
  | cmovnsR32Rm32
  /-- CMOVP r32, r/m32 (0F 4A /r): R341. -/
  | cmovpR32Rm32
  /-- CMOVNP r32, r/m32 (0F 4B /r): R341. -/
  | cmovnpR32Rm32
  /-- CMOVL r32, r/m32 (0F 4C /r): R351. -/
  | cmovlR32Rm32
  /-- CMOVGE r32, r/m32 (0F 4D /r): R351. -/
  | cmovgeR32Rm32
  /-- CMOVLE r32, r/m32 (0F 4E /r): R351. -/
  | cmovleR32Rm32
  /-- CMOVG r32, r/m32 (0F 4F /r): R351. -/
  | cmovgR32Rm32
  /-- JO rel32 (0F 80 rel32): R345. -/
  | joRel32
  /-- JNO rel32 (0F 81 rel32): R345. -/
  | jnoRel32
  /-- JB rel32 (0F 82 rel32): R345. -/
  | jbRel32
  /-- JAE rel32 (0F 83 rel32): R345. -/
  | jaeRel32
  /-- JE rel32 (0F 84 rel32): R345. -/
  | jeRel32
  /-- JNE rel32 (0F 85 rel32): R345. -/
  | jneRel32
  /-- JBE rel32 (0F 86 rel32): R345. -/
  | jbeRel32
  /-- JA rel32 (0F 87 rel32): R345. -/
  | jaRel32
  /-- JS rel32 (0F 88 rel32): R345. -/
  | jsRel32
  /-- JNS rel32 (0F 89 rel32): R345. -/
  | jnsRel32
  /-- JP rel32 (0F 8A rel32): R341. -/
  | jpRel32
  /-- JNP rel32 (0F 8B rel32): R341. -/
  | jnpRel32
  /-- JL rel32 (0F 8C rel32): R345. -/
  | jlRel32
  /-- JGE rel32 (0F 8D rel32): R345. -/
  | jgeRel32
  /-- JLE rel32 (0F 8E rel32): R345. -/
  | jleRel32
  /-- JG rel32 (0F 8F rel32): R345. -/
  | jgRel32
  /-- SETO r/m8 (0F 90 /r): R350. -/
  | setoRm8
  /-- SETNO r/m8 (0F 91 /r): R350. -/
  | setnoRm8
  /-- SETB r/m8 (0F 92 /r): R350. -/
  | setbRm8
  /-- SETAE r/m8 (0F 93 /r): R350. -/
  | setaeRm8
  /-- SETE r/m8 (0F 94 /r): R350. -/
  | seteRm8
  /-- SETNE r/m8 (0F 95 /r): R350. -/
  | setneRm8
  /-- SETBE r/m8 (0F 96 /r): R350. -/
  | setbeRm8
  /-- SETA r/m8 (0F 97 /r): R350. -/
  | setaRm8
  /-- SETS r/m8 (0F 98 /r): R350. -/
  | setsRm8
  /-- SETNS r/m8 (0F 99 /r): R350. -/
  | setnsRm8
  /-- SETP r/m8 (0F 9A /r): R341. -/
  | setpRm8
  /-- SETNP r/m8 (0F 9B /r): R341. -/
  | setnpRm8
  /-- SETL r/m8 (0F 9C /r): R350. -/
  | setlRm8
  /-- SETGE r/m8 (0F 9D /r): R350. -/
  | setgeRm8
  /-- SETLE r/m8 (0F 9E /r): R350. -/
  | setleRm8
  /-- SETG r/m8 (0F 9F /r): R350. -/
  | setgRm8
  /-- IMUL r32, r/m32 (0F AF /r): R255. -/
  | imulR32Rm32
  /-- LSS r32, m (0F B2 /r): R207. -/
  | lssR32M
  /-- LFS r32, m (0F B4 /r): R207. -/
  | lfsR32M
  /-- LGS r32, m (0F B5 /r): R207. -/
  | lgsR32M
  /-- MOVZX r32, r/m8 (0F B6 /r): R204. -/
  | movzxR32Rm8
  /-- MOVZX r32, r/m16 (0F B7 /r): R204. -/
  | movzxR32Rm16
  /-- BSF r32, r/m32 (0F BC /r): R286. -/
  | bsfR32Rm32
  /-- BSR r32, r/m32 (0F BD /r): R287. -/
  | bsrR32Rm32
  /-- MOVSX r32, r/m8 (0F BE /r): R205. -/
  | movsxR32Rm8
  /-- MOVSX r32, r/m16 (0F BF /r): R205. -/
  | movsxR32Rm16
  /-- FADD m32fp (D8 /0): R451. -/
  | faddM32fp
  /-- FMUL m32fp (D8 /1): R454. -/
  | fmulM32fp
  /-- FCOM m32fp (D8 /2): R476. -/
  | fcomM32fp
  /-- FCOMP m32fp (D8 /3): R477. -/
  | fcompM32fp
  /-- FSUB m32fp (D8 /4): R457. -/
  | fsubM32fp
  /-- FSUBR m32fp (D8 /5): R460. -/
  | fsubrM32fp
  /-- FDIV m32fp (D8 /6): R463. -/
  | fdivM32fp
  /-- FDIVR m32fp (D8 /7): R466. -/
  | fdivrM32fp
  /-- FIADD m32int (DA /0): R453. -/
  | fiaddM32int
  /-- FIMUL m32int (DA /1): R456. -/
  | fimulM32int
  /-- FICOM m32int (DA /2): R482. -/
  | ficomM32int
  /-- FICOMP m32int (DA /3): R483. -/
  | ficompM32int
  /-- FISUB m32int (DA /4): R459. -/
  | fisubM32int
  /-- FISUBR m32int (DA /5): R462. -/
  | fisubrM32int
  /-- FIDIV m32int (DA /6): R465. -/
  | fidivM32int
  /-- FIDIVR m32int (DA /7): R468. -/
  | fidivrM32int
  /-- FADD m64fp (DC /0): R451. -/
  | faddM64fp
  /-- FMUL m64fp (DC /1): R454. -/
  | fmulM64fp
  /-- FCOM m64fp (DC /2): R476. -/
  | fcomM64fp
  /-- FCOMP m64fp (DC /3): R477. -/
  | fcompM64fp
  /-- FSUB m64fp (DC /4): R457. -/
  | fsubM64fp
  /-- FSUBR m64fp (DC /5): R460. -/
  | fsubrM64fp
  /-- FDIV m64fp (DC /6): R463. -/
  | fdivM64fp
  /-- FDIVR m64fp (DC /7): R466. -/
  | fdivrM64fp
  /-- FIADD m16int (DE /0): R453. -/
  | fiaddM16int
  /-- FIMUL m16int (DE /1): R456. -/
  | fimulM16int
  /-- FICOM m16int (DE /2): R482. -/
  | ficomM16int
  /-- FICOMP m16int (DE /3): R483. -/
  | ficompM16int
  /-- FISUB m16int (DE /4): R459. -/
  | fisubM16int
  /-- FISUBR m16int (DE /5): R462. -/
  | fisubrM16int
  /-- FIDIV m16int (DE /6): R465. -/
  | fidivM16int
  /-- FIDIVR m16int (DE /7): R468. -/
  | fidivrM16int
  /-- FLD m32fp (D9 /0): R405. -/
  | fldM32fp
  /-- FST m32fp (D9 /2): R408. -/
  | fstM32fp
  /-- FSTP m32fp (D9 /3): R409. -/
  | fstpM32fp
  /-- FLDCW m16 (D9 /5): R419. -/
  | fldcwM16
  /-- FNSTCW m16 (D9 /7): R420. -/
  | fnstcwM16
  /-- FILD m32int (DB /0): R406. -/
  | fildM32int
  /-- FIST m32int (DB /2): R411. -/
  | fistM32int
  /-- FISTP m32int (DB /3): R412. -/
  | fistpM32int
  /-- FLD m80fp (DB /5): R405. -/
  | fldM80fp
  /-- FSTP m80fp (DB /7): R409. -/
  | fstpM80fp
  /-- FLD m64fp (DD /0): R405. -/
  | fldM64fp
  /-- FST m64fp (DD /2): R408. -/
  | fstM64fp
  /-- FSTP m64fp (DD /3): R409. -/
  | fstpM64fp
  /-- FNSTSW m16 (DD /7): R421. -/
  | fnstswM16
  /-- FILD m16int (DF /0): R406. -/
  | fildM16int
  /-- FIST m16int (DF /2): R411. -/
  | fistM16int
  /-- FISTP m16int (DF /3): R412. -/
  | fistpM16int
  /-- FILD m64int (DF /5): R406. -/
  | fildM64int
  /-- FISTP m64int (DF /7): R412. -/
  | fistpM64int
  /-- FADD ST(0), ST(i) (D8 C0+i): R451. -/
  | faddSt0Sti
  /-- FMUL ST(0), ST(i) (D8 C8+i): R454. -/
  | fmulSt0Sti
  /-- FCOM ST(i) (D8 D0+i): R476. -/
  | fcomSti
  /-- FCOMP ST(i) (D8 D8+i): R477. -/
  | fcompSti
  /-- FSUB ST(0), ST(i) (D8 E0+i): R457. -/
  | fsubSt0Sti
  /-- FSUBR ST(0), ST(i) (D8 E8+i): R460. -/
  | fsubrSt0Sti
  /-- FDIV ST(0), ST(i) (D8 F0+i): R463. -/
  | fdivSt0Sti
  /-- FDIVR ST(0), ST(i) (D8 F8+i): R466. -/
  | fdivrSt0Sti
  /-- FLD ST(i) (D9 C0+i): R405. -/
  | fldSti
  /-- FXCH ST(i) (D9 C8+i): R413. -/
  | fxchSti
  /-- FNOP (D9 D0): R422. -/
  | fnop
  /-- FCHS (D9 E0): R469. -/
  | fchs
  /-- FABS (D9 E1): R470. -/
  | fabs
  /-- FTST (D9 E4): R484. -/
  | ftst
  /-- FLD1 (D9 E8): R407. -/
  | fld1
  /-- FLDL2T (D9 E9): R407. -/
  | fldl2t
  /-- FLDL2E (D9 EA): R407. -/
  | fldl2e
  /-- FLDPI (D9 EB): R407. -/
  | fldpi
  /-- FLDLG2 (D9 EC): R407. -/
  | fldlg2
  /-- FLDLN2 (D9 ED): R407. -/
  | fldln2
  /-- FLDZ (D9 EE): R407. -/
  | fldz
  /-- FDECSTP (D9 F6): R416. -/
  | fdecstp
  /-- FINCSTP (D9 F7): R415. -/
  | fincstp
  /-- FSQRT (D9 FA): R471. -/
  | fsqrt
  /-- FCMOVB ST(0), ST(i) (DA C0+i): R490. -/
  | fcmovbSt0Sti
  /-- FCMOVE ST(0), ST(i) (DA C8+i): R490. -/
  | fcmoveSt0Sti
  /-- FCMOVBE ST(0), ST(i) (DA D0+i): R490. -/
  | fcmovbeSt0Sti
  /-- FCMOVU ST(0), ST(i) (DA D8+i): R341. -/
  | fcmovuSt0Sti
  /-- FUCOMPP (DA E9): R481. -/
  | fucompp
  /-- FCMOVNB ST(0), ST(i) (DB C0+i): R490. -/
  | fcmovnbSt0Sti
  /-- FCMOVNE ST(0), ST(i) (DB C8+i): R490. -/
  | fcmovneSt0Sti
  /-- FCMOVNBE ST(0), ST(i) (DB D0+i): R490. -/
  | fcmovnbeSt0Sti
  /-- FCMOVNU ST(0), ST(i) (DB D8+i): R341. -/
  | fcmovnuSt0Sti
  /-- FNCLEX (DB E2): R418. -/
  | fnclex
  /-- FNINIT (DB E3): R417. -/
  | fninit
  /-- FUCOMI ST(0), ST(i) (DB E8+i): R488. -/
  | fucomiSt0Sti
  /-- FCOMI ST(0), ST(i) (DB F0+i): R486. -/
  | fcomiSt0Sti
  /-- FADD ST(i), ST(0) (DC C0+i): R451. -/
  | faddStiSt0
  /-- FMUL ST(i), ST(0) (DC C8+i): R454. -/
  | fmulStiSt0
  /-- FSUBR ST(i), ST(0) (DC E0+i): R460. -/
  | fsubrStiSt0
  /-- FSUB ST(i), ST(0) (DC E8+i): R457. -/
  | fsubStiSt0
  /-- FDIVR ST(i), ST(0) (DC F0+i): R466. -/
  | fdivrStiSt0
  /-- FDIV ST(i), ST(0) (DC F8+i): R463. -/
  | fdivStiSt0
  /-- FFREE ST(i) (DD C0+i): R414. -/
  | ffreeSti
  /-- FST ST(i) (DD D0+i): R408. -/
  | fstSti
  /-- FSTP ST(i) (DD D8+i): R409. -/
  | fstpSti
  /-- FUCOM ST(i) (DD E0+i): R479. -/
  | fucomSti
  /-- FUCOMP ST(i) (DD E8+i): R480. -/
  | fucompSti
  /-- FADDP ST(i), ST(0) (DE C0+i): R452. -/
  | faddpStiSt0
  /-- FMULP ST(i), ST(0) (DE C8+i): R455. -/
  | fmulpStiSt0
  /-- FCOMPP (DE D9): R478. -/
  | fcompp
  /-- FSUBRP ST(i), ST(0) (DE E0+i): R461. -/
  | fsubrpStiSt0
  /-- FSUBP ST(i), ST(0) (DE E8+i): R458. -/
  | fsubpStiSt0
  /-- FDIVRP ST(i), ST(0) (DE F0+i): R467. -/
  | fdivrpStiSt0
  /-- FDIVP ST(i), ST(0) (DE F8+i): R464. -/
  | fdivpStiSt0
  /-- FNSTSW AX (DF E0): R421. -/
  | fnstswAx
  /-- FUCOMIP ST(0), ST(i) (DF E8+i): R489. -/
  | fucomipSt0Sti
  /-- FCOMIP ST(0), ST(i) (DF F0+i): R487. -/
  | fcomipSt0Sti
  deriving DecidableEq, Repr, Inhabited

/-- One decoded instruction (R150): its row, its prefixes and its operands. -/
structure Code where
  instr : Instr
  prefixes : Prefixes
  ops : Operands
  deriving DecidableEq, Repr, Inhabited

end Sys2Proof
end

