-- ==== Sys2Proof/Decode.lean ====
section
/-! DEFINITION. The decoder (spec/30_encoding.md R100 to R151), total on any list of bytes and rejecting by
name in the order of R150, and after it the encoder, written from the same encoding tables. The opcode maps
the decoder reads are those of R140 to R142; the row descriptions the encoder reads are those of
opcode_table.json (R151). -/

namespace Sys2Proof

/-- Why no instruction was decoded. `truncated` says the bytes ended before the instruction did. -/
inductive DecodeError where
  | truncated
  | unknownOpcode (key : OpKey)
  | unsupportedOperandSize (key : OpKey)
  | unsupportedGroupExtension (key : OpKey) (modrm : Byte)
  | unsupportedAddressingForm (key : OpKey) (modrm : Byte)
  deriving DecidableEq, Repr

/-! ### Bytes and fields -/

/-- ModRM bits 7..6 (R110); the scale of a SIB byte (R113). -/
def modField (m : Byte) : BitVec 2 := m.extractLsb' 6 2

/-- ModRM bits 5..3 (R110); the index of a SIB byte (R113). -/
def regField (m : Byte) : Reg := m.extractLsb' 3 3

/-- ModRM bits 2..0 (R110); the base of a SIB byte (R113); the register of a +r opcode (R140). -/
def rmField (m : Byte) : Reg := m.extractLsb' 0 3

/-- A ModRM or SIB byte from its three fields (R110, R113). -/
def joinFields (hi : BitVec 2) (mid lo : Reg) : Byte := (hi ++ mid) ++ lo

/-- Four instruction bytes, little-endian (R77, R130). -/
def word4 (b0 b1 b2 b3 : Byte) : Word := ((b3 ++ b2) ++ b1) ++ b0

/-- The four little-endian bytes of a word (R77). -/
def bytes4 (w : Word) : List Byte :=
  [w.extractLsb' 0 8, w.extractLsb' 8 8, w.extractLsb' 16 8, w.extractLsb' 24 8]

/-- The two little-endian bytes of the low half of a word (R77). -/
def bytes2 (w : Word) : List Byte := [w.extractLsb' 0 8, w.extractLsb' 8 8]

/-- Reads a disp32, id, rel32 or moffs32 field (R117, R130). -/
def take4 : List Byte → Except DecodeError (Word × List Byte)
  | b0 :: b1 :: b2 :: b3 :: rest => .ok (word4 b0 b1 b2 b3, rest)
  | _ => .error .truncated

/-! ### Rows -/

/-- What selects a row after its opcode key (R151, `fields.modrm`). -/
inductive Shape where
  /-- No ModRM byte. -/
  | none
  /-- No ModRM byte; the low three opcode bits name a register. -/
  | plusR
  /-- `/r`. -/
  | reg
  /-- `/r` with mod other than 3 (R123). -/
  | mem
  /-- `/n`. -/
  | ext (n : Reg)
  /-- An x87 memory form `/n` (R142). -/
  | extMem (n : Reg)
  /-- An x87 register form: mod = 3, reg = n, rm = i (R142). -/
  | st (n : Reg)
  /-- An x87 register form given by its whole second byte: mod = 3, reg = n, rm = m (R142). -/
  | fixed (n m : Reg)
  deriving DecidableEq, Repr

/-- The immediate, offset or moffs field (R130). -/
inductive ImmKind where
  | none
  /-- One byte, zero-extended. -/
  | ib
  /-- One byte, sign-extended. -/
  | ibSext
  /-- Two bytes, zero-extended. -/
  | iw
  /-- Four bytes. -/
  | id
  /-- Four bytes, or two (zero-extended) under the operand-size prefix. -/
  | idOrIw
  /-- One byte, sign-extended, relative to `next`. -/
  | rel8
  /-- Four bytes, relative to `next`. -/
  | rel32
  /-- A four-byte absolute offset. -/
  | moffs32
  deriving DecidableEq, Repr

/-- A row of opcode_table.json (R151). -/
structure Row where
  /-- The opcode key; for `plusR` the opcode with register 0. -/
  key : OpKey
  shape : Shape
  imm : ImmKind
  /-- Whether the row honours 0x66 (R105). -/
  opsize16 : Bool
  deriving DecidableEq, Repr

/-- The rows of opcode_table.json. The parity-condition jumps carry no offset here: R150 raises their fault
before any rel byte is fetched (R341; log 8). -/
def Instr.row : Instr → Row
  | .addRm8R8 => ⟨.one 0x00, .reg, .none, false⟩
  | .addRm32R32 => ⟨.one 0x01, .reg, .none, false⟩
  | .addR8Rm8 => ⟨.one 0x02, .reg, .none, false⟩
  | .addR32Rm32 => ⟨.one 0x03, .reg, .none, false⟩
  | .addAlIb => ⟨.one 0x04, .none, .ib, false⟩
  | .addEaxId => ⟨.one 0x05, .none, .id, false⟩
  | .orRm8R8 => ⟨.one 0x08, .reg, .none, false⟩
  | .orRm32R32 => ⟨.one 0x09, .reg, .none, false⟩
  | .orR8Rm8 => ⟨.one 0x0A, .reg, .none, false⟩
  | .orR32Rm32 => ⟨.one 0x0B, .reg, .none, false⟩
  | .orAlIb => ⟨.one 0x0C, .none, .ib, false⟩
  | .orEaxId => ⟨.one 0x0D, .none, .id, false⟩
  | .adcRm8R8 => ⟨.one 0x10, .reg, .none, false⟩
  | .adcRm32R32 => ⟨.one 0x11, .reg, .none, false⟩
  | .adcR8Rm8 => ⟨.one 0x12, .reg, .none, false⟩
  | .adcR32Rm32 => ⟨.one 0x13, .reg, .none, false⟩
  | .adcAlIb => ⟨.one 0x14, .none, .ib, false⟩
  | .adcEaxId => ⟨.one 0x15, .none, .id, false⟩
  | .sbbRm8R8 => ⟨.one 0x18, .reg, .none, false⟩
  | .sbbRm32R32 => ⟨.one 0x19, .reg, .none, false⟩
  | .sbbR8Rm8 => ⟨.one 0x1A, .reg, .none, false⟩
  | .sbbR32Rm32 => ⟨.one 0x1B, .reg, .none, false⟩
  | .sbbAlIb => ⟨.one 0x1C, .none, .ib, false⟩
  | .sbbEaxId => ⟨.one 0x1D, .none, .id, false⟩
  | .andRm8R8 => ⟨.one 0x20, .reg, .none, false⟩
  | .andRm32R32 => ⟨.one 0x21, .reg, .none, false⟩
  | .andR8Rm8 => ⟨.one 0x22, .reg, .none, false⟩
  | .andR32Rm32 => ⟨.one 0x23, .reg, .none, false⟩
  | .andAlIb => ⟨.one 0x24, .none, .ib, false⟩
  | .andEaxId => ⟨.one 0x25, .none, .id, false⟩
  | .subRm8R8 => ⟨.one 0x28, .reg, .none, false⟩
  | .subRm32R32 => ⟨.one 0x29, .reg, .none, false⟩
  | .subR8Rm8 => ⟨.one 0x2A, .reg, .none, false⟩
  | .subR32Rm32 => ⟨.one 0x2B, .reg, .none, false⟩
  | .subAlIb => ⟨.one 0x2C, .none, .ib, false⟩
  | .subEaxId => ⟨.one 0x2D, .none, .id, false⟩
  | .xorRm8R8 => ⟨.one 0x30, .reg, .none, false⟩
  | .xorRm32R32 => ⟨.one 0x31, .reg, .none, false⟩
  | .xorR8Rm8 => ⟨.one 0x32, .reg, .none, false⟩
  | .xorR32Rm32 => ⟨.one 0x33, .reg, .none, false⟩
  | .xorAlIb => ⟨.one 0x34, .none, .ib, false⟩
  | .xorEaxId => ⟨.one 0x35, .none, .id, false⟩
  | .cmpRm8R8 => ⟨.one 0x38, .reg, .none, false⟩
  | .cmpRm32R32 => ⟨.one 0x39, .reg, .none, false⟩
  | .cmpR8Rm8 => ⟨.one 0x3A, .reg, .none, false⟩
  | .cmpR32Rm32 => ⟨.one 0x3B, .reg, .none, false⟩
  | .cmpAlIb => ⟨.one 0x3C, .none, .ib, false⟩
  | .cmpEaxId => ⟨.one 0x3D, .none, .id, false⟩
  | .incR32 => ⟨.one 0x40, .plusR, .none, false⟩
  | .decR32 => ⟨.one 0x48, .plusR, .none, false⟩
  | .pushR32 => ⟨.one 0x50, .plusR, .none, false⟩
  | .popR32 => ⟨.one 0x58, .plusR, .none, false⟩
  | .pushad => ⟨.one 0x60, .none, .none, false⟩
  | .popad => ⟨.one 0x61, .none, .none, false⟩
  | .pushId => ⟨.one 0x68, .none, .id, false⟩
  | .imulR32Rm32Id => ⟨.one 0x69, .reg, .id, false⟩
  | .pushIb => ⟨.one 0x6A, .none, .ibSext, false⟩
  | .imulR32Rm32Ib => ⟨.one 0x6B, .reg, .ibSext, false⟩
  | .joRel8 => ⟨.one 0x70, .none, .rel8, false⟩
  | .jnoRel8 => ⟨.one 0x71, .none, .rel8, false⟩
  | .jbRel8 => ⟨.one 0x72, .none, .rel8, false⟩
  | .jaeRel8 => ⟨.one 0x73, .none, .rel8, false⟩
  | .jeRel8 => ⟨.one 0x74, .none, .rel8, false⟩
  | .jneRel8 => ⟨.one 0x75, .none, .rel8, false⟩
  | .jbeRel8 => ⟨.one 0x76, .none, .rel8, false⟩
  | .jaRel8 => ⟨.one 0x77, .none, .rel8, false⟩
  | .jsRel8 => ⟨.one 0x78, .none, .rel8, false⟩
  | .jnsRel8 => ⟨.one 0x79, .none, .rel8, false⟩
  | .jpRel8 => ⟨.one 0x7A, .none, .none, false⟩
  | .jnpRel8 => ⟨.one 0x7B, .none, .none, false⟩
  | .jlRel8 => ⟨.one 0x7C, .none, .rel8, false⟩
  | .jgeRel8 => ⟨.one 0x7D, .none, .rel8, false⟩
  | .jleRel8 => ⟨.one 0x7E, .none, .rel8, false⟩
  | .jgRel8 => ⟨.one 0x7F, .none, .rel8, false⟩
  | .addRm8Ib => ⟨.one 0x80, (.ext 0), .ib, false⟩
  | .addRm32Id => ⟨.one 0x81, (.ext 0), .id, false⟩
  | .addRm32Ib => ⟨.one 0x83, (.ext 0), .ibSext, false⟩
  | .orRm8Ib => ⟨.one 0x80, (.ext 1), .ib, false⟩
  | .orRm32Id => ⟨.one 0x81, (.ext 1), .id, false⟩
  | .orRm32Ib => ⟨.one 0x83, (.ext 1), .ibSext, false⟩
  | .adcRm8Ib => ⟨.one 0x80, (.ext 2), .ib, false⟩
  | .adcRm32Id => ⟨.one 0x81, (.ext 2), .id, false⟩
  | .adcRm32Ib => ⟨.one 0x83, (.ext 2), .ibSext, false⟩
  | .sbbRm8Ib => ⟨.one 0x80, (.ext 3), .ib, false⟩
  | .sbbRm32Id => ⟨.one 0x81, (.ext 3), .id, false⟩
  | .sbbRm32Ib => ⟨.one 0x83, (.ext 3), .ibSext, false⟩
  | .andRm8Ib => ⟨.one 0x80, (.ext 4), .ib, false⟩
  | .andRm32Id => ⟨.one 0x81, (.ext 4), .id, false⟩
  | .andRm32Ib => ⟨.one 0x83, (.ext 4), .ibSext, false⟩
  | .subRm8Ib => ⟨.one 0x80, (.ext 5), .ib, false⟩
  | .subRm32Id => ⟨.one 0x81, (.ext 5), .id, false⟩
  | .subRm32Ib => ⟨.one 0x83, (.ext 5), .ibSext, false⟩
  | .xorRm8Ib => ⟨.one 0x80, (.ext 6), .ib, false⟩
  | .xorRm32Id => ⟨.one 0x81, (.ext 6), .id, false⟩
  | .xorRm32Ib => ⟨.one 0x83, (.ext 6), .ibSext, false⟩
  | .cmpRm8Ib => ⟨.one 0x80, (.ext 7), .ib, false⟩
  | .cmpRm32Id => ⟨.one 0x81, (.ext 7), .id, false⟩
  | .cmpRm32Ib => ⟨.one 0x83, (.ext 7), .ibSext, false⟩
  | .testRm8R8 => ⟨.one 0x84, .reg, .none, false⟩
  | .testRm32R32 => ⟨.one 0x85, .reg, .none, false⟩
  | .movRm8R8 => ⟨.one 0x88, .reg, .none, false⟩
  | .movRm32R32 => ⟨.one 0x89, .reg, .none, true⟩
  | .movR8Rm8 => ⟨.one 0x8A, .reg, .none, false⟩
  | .movR32Rm32 => ⟨.one 0x8B, .reg, .none, true⟩
  | .leaR32M => ⟨.one 0x8D, .mem, .none, false⟩
  | .popRm32 => ⟨.one 0x8F, (.ext 0), .none, false⟩
  | .nop => ⟨.one 0x90, .none, .none, true⟩
  | .cwde => ⟨.one 0x98, .none, .none, false⟩
  | .cdq => ⟨.one 0x99, .none, .none, false⟩
  | .wait => ⟨.one 0x9B, .none, .none, false⟩
  | .movAlMoffs8 => ⟨.one 0xA0, .none, .moffs32, false⟩
  | .movEaxMoffs32 => ⟨.one 0xA1, .none, .moffs32, true⟩
  | .movMoffs8Al => ⟨.one 0xA2, .none, .moffs32, false⟩
  | .movMoffs32Eax => ⟨.one 0xA3, .none, .moffs32, true⟩
  | .movsb => ⟨.one 0xA4, .none, .none, false⟩
  | .movsd => ⟨.one 0xA5, .none, .none, false⟩
  | .cmpsb => ⟨.one 0xA6, .none, .none, false⟩
  | .cmpsd => ⟨.one 0xA7, .none, .none, false⟩
  | .testAlIb => ⟨.one 0xA8, .none, .ib, false⟩
  | .testEaxId => ⟨.one 0xA9, .none, .id, false⟩
  | .stosb => ⟨.one 0xAA, .none, .none, false⟩
  | .stosd => ⟨.one 0xAB, .none, .none, false⟩
  | .lodsb => ⟨.one 0xAC, .none, .none, false⟩
  | .lodsd => ⟨.one 0xAD, .none, .none, false⟩
  | .scasb => ⟨.one 0xAE, .none, .none, false⟩
  | .scasd => ⟨.one 0xAF, .none, .none, false⟩
  | .movR8Ib => ⟨.one 0xB0, .plusR, .ib, false⟩
  | .movR32Id => ⟨.one 0xB8, .plusR, .idOrIw, true⟩
  | .rolRm8Ib => ⟨.one 0xC0, (.ext 0), .ib, false⟩
  | .rorRm8Ib => ⟨.one 0xC0, (.ext 1), .ib, false⟩
  | .rclRm8Ib => ⟨.one 0xC0, (.ext 2), .ib, false⟩
  | .rcrRm8Ib => ⟨.one 0xC0, (.ext 3), .ib, false⟩
  | .shlRm8Ib => ⟨.one 0xC0, (.ext 4), .ib, false⟩
  | .shrRm8Ib => ⟨.one 0xC0, (.ext 5), .ib, false⟩
  | .sarRm8Ib => ⟨.one 0xC0, (.ext 7), .ib, false⟩
  | .rolRm32Ib => ⟨.one 0xC1, (.ext 0), .ib, false⟩
  | .rorRm32Ib => ⟨.one 0xC1, (.ext 1), .ib, false⟩
  | .rclRm32Ib => ⟨.one 0xC1, (.ext 2), .ib, false⟩
  | .rcrRm32Ib => ⟨.one 0xC1, (.ext 3), .ib, false⟩
  | .shlRm32Ib => ⟨.one 0xC1, (.ext 4), .ib, false⟩
  | .shrRm32Ib => ⟨.one 0xC1, (.ext 5), .ib, false⟩
  | .sarRm32Ib => ⟨.one 0xC1, (.ext 7), .ib, false⟩
  | .rolRm8One => ⟨.one 0xD0, (.ext 0), .none, false⟩
  | .rorRm8One => ⟨.one 0xD0, (.ext 1), .none, false⟩
  | .rclRm8One => ⟨.one 0xD0, (.ext 2), .none, false⟩
  | .rcrRm8One => ⟨.one 0xD0, (.ext 3), .none, false⟩
  | .shlRm8One => ⟨.one 0xD0, (.ext 4), .none, false⟩
  | .shrRm8One => ⟨.one 0xD0, (.ext 5), .none, false⟩
  | .sarRm8One => ⟨.one 0xD0, (.ext 7), .none, false⟩
  | .rolRm32One => ⟨.one 0xD1, (.ext 0), .none, false⟩
  | .rorRm32One => ⟨.one 0xD1, (.ext 1), .none, false⟩
  | .rclRm32One => ⟨.one 0xD1, (.ext 2), .none, false⟩
  | .rcrRm32One => ⟨.one 0xD1, (.ext 3), .none, false⟩
  | .shlRm32One => ⟨.one 0xD1, (.ext 4), .none, false⟩
  | .shrRm32One => ⟨.one 0xD1, (.ext 5), .none, false⟩
  | .sarRm32One => ⟨.one 0xD1, (.ext 7), .none, false⟩
  | .rolRm8Cl => ⟨.one 0xD2, (.ext 0), .none, false⟩
  | .rorRm8Cl => ⟨.one 0xD2, (.ext 1), .none, false⟩
  | .rclRm8Cl => ⟨.one 0xD2, (.ext 2), .none, false⟩
  | .rcrRm8Cl => ⟨.one 0xD2, (.ext 3), .none, false⟩
  | .shlRm8Cl => ⟨.one 0xD2, (.ext 4), .none, false⟩
  | .shrRm8Cl => ⟨.one 0xD2, (.ext 5), .none, false⟩
  | .sarRm8Cl => ⟨.one 0xD2, (.ext 7), .none, false⟩
  | .rolRm32Cl => ⟨.one 0xD3, (.ext 0), .none, false⟩
  | .rorRm32Cl => ⟨.one 0xD3, (.ext 1), .none, false⟩
  | .rclRm32Cl => ⟨.one 0xD3, (.ext 2), .none, false⟩
  | .rcrRm32Cl => ⟨.one 0xD3, (.ext 3), .none, false⟩
  | .shlRm32Cl => ⟨.one 0xD3, (.ext 4), .none, false⟩
  | .shrRm32Cl => ⟨.one 0xD3, (.ext 5), .none, false⟩
  | .sarRm32Cl => ⟨.one 0xD3, (.ext 7), .none, false⟩
  | .retIw => ⟨.one 0xC2, .none, .iw, false⟩
  | .ret => ⟨.one 0xC3, .none, .none, false⟩
  | .lesR32M => ⟨.one 0xC4, .mem, .none, false⟩
  | .ldsR32M => ⟨.one 0xC5, .mem, .none, false⟩
  | .movRm8Ib => ⟨.one 0xC6, (.ext 0), .ib, false⟩
  | .movRm32Id => ⟨.one 0xC7, (.ext 0), .idOrIw, true⟩
  | .leave => ⟨.one 0xC9, .none, .none, false⟩
  | .int3 => ⟨.one 0xCC, .none, .none, false⟩
  | .intIb => ⟨.one 0xCD, .none, .ib, false⟩
  | .callRel32 => ⟨.one 0xE8, .none, .rel32, false⟩
  | .jmpRel32 => ⟨.one 0xE9, .none, .rel32, false⟩
  | .jmpRel8 => ⟨.one 0xEB, .none, .rel8, false⟩
  | .hlt => ⟨.one 0xF4, .none, .none, false⟩
  | .cmc => ⟨.one 0xF5, .none, .none, false⟩
  | .testRm8Ib => ⟨.one 0xF6, (.ext 0), .ib, false⟩
  | .notRm8 => ⟨.one 0xF6, (.ext 2), .none, false⟩
  | .negRm8 => ⟨.one 0xF6, (.ext 3), .none, false⟩
  | .mulRm8 => ⟨.one 0xF6, (.ext 4), .none, false⟩
  | .imulRm8 => ⟨.one 0xF6, (.ext 5), .none, false⟩
  | .divRm8 => ⟨.one 0xF6, (.ext 6), .none, false⟩
  | .idivRm8 => ⟨.one 0xF6, (.ext 7), .none, false⟩
  | .testRm32Id => ⟨.one 0xF7, (.ext 0), .id, false⟩
  | .notRm32 => ⟨.one 0xF7, (.ext 2), .none, false⟩
  | .negRm32 => ⟨.one 0xF7, (.ext 3), .none, false⟩
  | .mulRm32 => ⟨.one 0xF7, (.ext 4), .none, false⟩
  | .imulRm32 => ⟨.one 0xF7, (.ext 5), .none, false⟩
  | .divRm32 => ⟨.one 0xF7, (.ext 6), .none, false⟩
  | .idivRm32 => ⟨.one 0xF7, (.ext 7), .none, false⟩
  | .clc => ⟨.one 0xF8, .none, .none, false⟩
  | .stc => ⟨.one 0xF9, .none, .none, false⟩
  | .cld => ⟨.one 0xFC, .none, .none, false⟩
  | .std => ⟨.one 0xFD, .none, .none, false⟩
  | .incRm8 => ⟨.one 0xFE, (.ext 0), .none, false⟩
  | .decRm8 => ⟨.one 0xFE, (.ext 1), .none, false⟩
  | .incRm32 => ⟨.one 0xFF, (.ext 0), .none, false⟩
  | .decRm32 => ⟨.one 0xFF, (.ext 1), .none, false⟩
  | .callRm32 => ⟨.one 0xFF, (.ext 2), .none, false⟩
  | .jmpRm32 => ⟨.one 0xFF, (.ext 4), .none, false⟩
  | .pushRm32 => ⟨.one 0xFF, (.ext 6), .none, false⟩
  | .nopRm32 => ⟨.two 0x1F, (.ext 0), .none, true⟩
  | .cmovoR32Rm32 => ⟨.two 0x40, .reg, .none, false⟩
  | .cmovnoR32Rm32 => ⟨.two 0x41, .reg, .none, false⟩
  | .cmovbR32Rm32 => ⟨.two 0x42, .reg, .none, false⟩
  | .cmovaeR32Rm32 => ⟨.two 0x43, .reg, .none, false⟩
  | .cmoveR32Rm32 => ⟨.two 0x44, .reg, .none, false⟩
  | .cmovneR32Rm32 => ⟨.two 0x45, .reg, .none, false⟩
  | .cmovbeR32Rm32 => ⟨.two 0x46, .reg, .none, false⟩
  | .cmovaR32Rm32 => ⟨.two 0x47, .reg, .none, false⟩
  | .cmovsR32Rm32 => ⟨.two 0x48, .reg, .none, false⟩
  | .cmovnsR32Rm32 => ⟨.two 0x49, .reg, .none, false⟩
  | .cmovpR32Rm32 => ⟨.two 0x4A, .reg, .none, false⟩
  | .cmovnpR32Rm32 => ⟨.two 0x4B, .reg, .none, false⟩
  | .cmovlR32Rm32 => ⟨.two 0x4C, .reg, .none, false⟩
  | .cmovgeR32Rm32 => ⟨.two 0x4D, .reg, .none, false⟩
  | .cmovleR32Rm32 => ⟨.two 0x4E, .reg, .none, false⟩
  | .cmovgR32Rm32 => ⟨.two 0x4F, .reg, .none, false⟩
  | .joRel32 => ⟨.two 0x80, .none, .rel32, false⟩
  | .jnoRel32 => ⟨.two 0x81, .none, .rel32, false⟩
  | .jbRel32 => ⟨.two 0x82, .none, .rel32, false⟩
  | .jaeRel32 => ⟨.two 0x83, .none, .rel32, false⟩
  | .jeRel32 => ⟨.two 0x84, .none, .rel32, false⟩
  | .jneRel32 => ⟨.two 0x85, .none, .rel32, false⟩
  | .jbeRel32 => ⟨.two 0x86, .none, .rel32, false⟩
  | .jaRel32 => ⟨.two 0x87, .none, .rel32, false⟩
  | .jsRel32 => ⟨.two 0x88, .none, .rel32, false⟩
  | .jnsRel32 => ⟨.two 0x89, .none, .rel32, false⟩
  | .jpRel32 => ⟨.two 0x8A, .none, .none, false⟩
  | .jnpRel32 => ⟨.two 0x8B, .none, .none, false⟩
  | .jlRel32 => ⟨.two 0x8C, .none, .rel32, false⟩
  | .jgeRel32 => ⟨.two 0x8D, .none, .rel32, false⟩
  | .jleRel32 => ⟨.two 0x8E, .none, .rel32, false⟩
  | .jgRel32 => ⟨.two 0x8F, .none, .rel32, false⟩
  | .setoRm8 => ⟨.two 0x90, .reg, .none, false⟩
  | .setnoRm8 => ⟨.two 0x91, .reg, .none, false⟩
  | .setbRm8 => ⟨.two 0x92, .reg, .none, false⟩
  | .setaeRm8 => ⟨.two 0x93, .reg, .none, false⟩
  | .seteRm8 => ⟨.two 0x94, .reg, .none, false⟩
  | .setneRm8 => ⟨.two 0x95, .reg, .none, false⟩
  | .setbeRm8 => ⟨.two 0x96, .reg, .none, false⟩
  | .setaRm8 => ⟨.two 0x97, .reg, .none, false⟩
  | .setsRm8 => ⟨.two 0x98, .reg, .none, false⟩
  | .setnsRm8 => ⟨.two 0x99, .reg, .none, false⟩
  | .setpRm8 => ⟨.two 0x9A, .reg, .none, false⟩
  | .setnpRm8 => ⟨.two 0x9B, .reg, .none, false⟩
  | .setlRm8 => ⟨.two 0x9C, .reg, .none, false⟩
  | .setgeRm8 => ⟨.two 0x9D, .reg, .none, false⟩
  | .setleRm8 => ⟨.two 0x9E, .reg, .none, false⟩
  | .setgRm8 => ⟨.two 0x9F, .reg, .none, false⟩
  | .imulR32Rm32 => ⟨.two 0xAF, .reg, .none, false⟩
  | .lssR32M => ⟨.two 0xB2, .mem, .none, false⟩
  | .lfsR32M => ⟨.two 0xB4, .mem, .none, false⟩
  | .lgsR32M => ⟨.two 0xB5, .mem, .none, false⟩
  | .movzxR32Rm8 => ⟨.two 0xB6, .reg, .none, false⟩
  | .movzxR32Rm16 => ⟨.two 0xB7, .reg, .none, false⟩
  | .bsfR32Rm32 => ⟨.two 0xBC, .reg, .none, false⟩
  | .bsrR32Rm32 => ⟨.two 0xBD, .reg, .none, false⟩
  | .movsxR32Rm8 => ⟨.two 0xBE, .reg, .none, false⟩
  | .movsxR32Rm16 => ⟨.two 0xBF, .reg, .none, false⟩
  | .faddM32fp => ⟨.one 0xD8, (.extMem 0), .none, false⟩
  | .fmulM32fp => ⟨.one 0xD8, (.extMem 1), .none, false⟩
  | .fcomM32fp => ⟨.one 0xD8, (.extMem 2), .none, false⟩
  | .fcompM32fp => ⟨.one 0xD8, (.extMem 3), .none, false⟩
  | .fsubM32fp => ⟨.one 0xD8, (.extMem 4), .none, false⟩
  | .fsubrM32fp => ⟨.one 0xD8, (.extMem 5), .none, false⟩
  | .fdivM32fp => ⟨.one 0xD8, (.extMem 6), .none, false⟩
  | .fdivrM32fp => ⟨.one 0xD8, (.extMem 7), .none, false⟩
  | .fiaddM32int => ⟨.one 0xDA, (.extMem 0), .none, false⟩
  | .fimulM32int => ⟨.one 0xDA, (.extMem 1), .none, false⟩
  | .ficomM32int => ⟨.one 0xDA, (.extMem 2), .none, false⟩
  | .ficompM32int => ⟨.one 0xDA, (.extMem 3), .none, false⟩
  | .fisubM32int => ⟨.one 0xDA, (.extMem 4), .none, false⟩
  | .fisubrM32int => ⟨.one 0xDA, (.extMem 5), .none, false⟩
  | .fidivM32int => ⟨.one 0xDA, (.extMem 6), .none, false⟩
  | .fidivrM32int => ⟨.one 0xDA, (.extMem 7), .none, false⟩
  | .faddM64fp => ⟨.one 0xDC, (.extMem 0), .none, false⟩
  | .fmulM64fp => ⟨.one 0xDC, (.extMem 1), .none, false⟩
  | .fcomM64fp => ⟨.one 0xDC, (.extMem 2), .none, false⟩
  | .fcompM64fp => ⟨.one 0xDC, (.extMem 3), .none, false⟩
  | .fsubM64fp => ⟨.one 0xDC, (.extMem 4), .none, false⟩
  | .fsubrM64fp => ⟨.one 0xDC, (.extMem 5), .none, false⟩
  | .fdivM64fp => ⟨.one 0xDC, (.extMem 6), .none, false⟩
  | .fdivrM64fp => ⟨.one 0xDC, (.extMem 7), .none, false⟩
  | .fiaddM16int => ⟨.one 0xDE, (.extMem 0), .none, false⟩
  | .fimulM16int => ⟨.one 0xDE, (.extMem 1), .none, false⟩
  | .ficomM16int => ⟨.one 0xDE, (.extMem 2), .none, false⟩
  | .ficompM16int => ⟨.one 0xDE, (.extMem 3), .none, false⟩
  | .fisubM16int => ⟨.one 0xDE, (.extMem 4), .none, false⟩
  | .fisubrM16int => ⟨.one 0xDE, (.extMem 5), .none, false⟩
  | .fidivM16int => ⟨.one 0xDE, (.extMem 6), .none, false⟩
  | .fidivrM16int => ⟨.one 0xDE, (.extMem 7), .none, false⟩
  | .fldM32fp => ⟨.one 0xD9, (.extMem 0), .none, false⟩
  | .fstM32fp => ⟨.one 0xD9, (.extMem 2), .none, false⟩
  | .fstpM32fp => ⟨.one 0xD9, (.extMem 3), .none, false⟩
  | .fldcwM16 => ⟨.one 0xD9, (.extMem 5), .none, false⟩
  | .fnstcwM16 => ⟨.one 0xD9, (.extMem 7), .none, false⟩
  | .fildM32int => ⟨.one 0xDB, (.extMem 0), .none, false⟩
  | .fistM32int => ⟨.one 0xDB, (.extMem 2), .none, false⟩
  | .fistpM32int => ⟨.one 0xDB, (.extMem 3), .none, false⟩
  | .fldM80fp => ⟨.one 0xDB, (.extMem 5), .none, false⟩
  | .fstpM80fp => ⟨.one 0xDB, (.extMem 7), .none, false⟩
  | .fldM64fp => ⟨.one 0xDD, (.extMem 0), .none, false⟩
  | .fstM64fp => ⟨.one 0xDD, (.extMem 2), .none, false⟩
  | .fstpM64fp => ⟨.one 0xDD, (.extMem 3), .none, false⟩
  | .fnstswM16 => ⟨.one 0xDD, (.extMem 7), .none, false⟩
  | .fildM16int => ⟨.one 0xDF, (.extMem 0), .none, false⟩
  | .fistM16int => ⟨.one 0xDF, (.extMem 2), .none, false⟩
  | .fistpM16int => ⟨.one 0xDF, (.extMem 3), .none, false⟩
  | .fildM64int => ⟨.one 0xDF, (.extMem 5), .none, false⟩
  | .fistpM64int => ⟨.one 0xDF, (.extMem 7), .none, false⟩
  | .faddSt0Sti => ⟨.one 0xD8, (.st 0), .none, false⟩
  | .fmulSt0Sti => ⟨.one 0xD8, (.st 1), .none, false⟩
  | .fcomSti => ⟨.one 0xD8, (.st 2), .none, false⟩
  | .fcompSti => ⟨.one 0xD8, (.st 3), .none, false⟩
  | .fsubSt0Sti => ⟨.one 0xD8, (.st 4), .none, false⟩
  | .fsubrSt0Sti => ⟨.one 0xD8, (.st 5), .none, false⟩
  | .fdivSt0Sti => ⟨.one 0xD8, (.st 6), .none, false⟩
  | .fdivrSt0Sti => ⟨.one 0xD8, (.st 7), .none, false⟩
  | .fldSti => ⟨.one 0xD9, (.st 0), .none, false⟩
  | .fxchSti => ⟨.one 0xD9, (.st 1), .none, false⟩
  | .fnop => ⟨.one 0xD9, (.fixed 2 0), .none, false⟩
  | .fchs => ⟨.one 0xD9, (.fixed 4 0), .none, false⟩
  | .fabs => ⟨.one 0xD9, (.fixed 4 1), .none, false⟩
  | .ftst => ⟨.one 0xD9, (.fixed 4 4), .none, false⟩
  | .fld1 => ⟨.one 0xD9, (.fixed 5 0), .none, false⟩
  | .fldl2t => ⟨.one 0xD9, (.fixed 5 1), .none, false⟩
  | .fldl2e => ⟨.one 0xD9, (.fixed 5 2), .none, false⟩
  | .fldpi => ⟨.one 0xD9, (.fixed 5 3), .none, false⟩
  | .fldlg2 => ⟨.one 0xD9, (.fixed 5 4), .none, false⟩
  | .fldln2 => ⟨.one 0xD9, (.fixed 5 5), .none, false⟩
  | .fldz => ⟨.one 0xD9, (.fixed 5 6), .none, false⟩
  | .fdecstp => ⟨.one 0xD9, (.fixed 6 6), .none, false⟩
  | .fincstp => ⟨.one 0xD9, (.fixed 6 7), .none, false⟩
  | .fsqrt => ⟨.one 0xD9, (.fixed 7 2), .none, false⟩
  | .fcmovbSt0Sti => ⟨.one 0xDA, (.st 0), .none, false⟩
  | .fcmoveSt0Sti => ⟨.one 0xDA, (.st 1), .none, false⟩
  | .fcmovbeSt0Sti => ⟨.one 0xDA, (.st 2), .none, false⟩
  | .fcmovuSt0Sti => ⟨.one 0xDA, (.st 3), .none, false⟩
  | .fucompp => ⟨.one 0xDA, (.fixed 5 1), .none, false⟩
  | .fcmovnbSt0Sti => ⟨.one 0xDB, (.st 0), .none, false⟩
  | .fcmovneSt0Sti => ⟨.one 0xDB, (.st 1), .none, false⟩
  | .fcmovnbeSt0Sti => ⟨.one 0xDB, (.st 2), .none, false⟩
  | .fcmovnuSt0Sti => ⟨.one 0xDB, (.st 3), .none, false⟩
  | .fnclex => ⟨.one 0xDB, (.fixed 4 2), .none, false⟩
  | .fninit => ⟨.one 0xDB, (.fixed 4 3), .none, false⟩
  | .fucomiSt0Sti => ⟨.one 0xDB, (.st 5), .none, false⟩
  | .fcomiSt0Sti => ⟨.one 0xDB, (.st 6), .none, false⟩
  | .faddStiSt0 => ⟨.one 0xDC, (.st 0), .none, false⟩
  | .fmulStiSt0 => ⟨.one 0xDC, (.st 1), .none, false⟩
  | .fsubrStiSt0 => ⟨.one 0xDC, (.st 4), .none, false⟩
  | .fsubStiSt0 => ⟨.one 0xDC, (.st 5), .none, false⟩
  | .fdivrStiSt0 => ⟨.one 0xDC, (.st 6), .none, false⟩
  | .fdivStiSt0 => ⟨.one 0xDC, (.st 7), .none, false⟩
  | .ffreeSti => ⟨.one 0xDD, (.st 0), .none, false⟩
  | .fstSti => ⟨.one 0xDD, (.st 2), .none, false⟩
  | .fstpSti => ⟨.one 0xDD, (.st 3), .none, false⟩
  | .fucomSti => ⟨.one 0xDD, (.st 4), .none, false⟩
  | .fucompSti => ⟨.one 0xDD, (.st 5), .none, false⟩
  | .faddpStiSt0 => ⟨.one 0xDE, (.st 0), .none, false⟩
  | .fmulpStiSt0 => ⟨.one 0xDE, (.st 1), .none, false⟩
  | .fcompp => ⟨.one 0xDE, (.fixed 3 1), .none, false⟩
  | .fsubrpStiSt0 => ⟨.one 0xDE, (.st 4), .none, false⟩
  | .fsubpStiSt0 => ⟨.one 0xDE, (.st 5), .none, false⟩
  | .fdivrpStiSt0 => ⟨.one 0xDE, (.st 6), .none, false⟩
  | .fdivpStiSt0 => ⟨.one 0xDE, (.st 7), .none, false⟩
  | .fnstswAx => ⟨.one 0xDF, (.fixed 4 0), .none, false⟩
  | .fucomipSt0Sti => ⟨.one 0xDF, (.st 5), .none, false⟩
  | .fcomipSt0Sti => ⟨.one 0xDF, (.st 6), .none, false⟩

/-! ### The opcode maps -/

/-- An entry of the dispatch tables (R104, R140 to R142). -/
inductive Entry where
  /-- No ModRM byte. -/
  | plain (i : Instr)
  /-- The low three opcode bits name a register. -/
  | plusR (i : Instr)
  /-- `/r`: a register or a memory operand. -/
  | modrm (i : Instr)
  /-- `/r` with a memory operand only (R123). -/
  | mem (i : Instr)
  /-- ModRM reg selects the operation (R122). -/
  | group (g : Reg → Option Instr)
  /-- An x87 opcode: memory forms by reg, register forms by reg and rm (R142). -/
  | x87 (m : Reg → Option Instr) (r : Reg → Reg → Option Instr)

/-- The operations of opcode 80 by ModRM reg (R122, R140). -/
def group80 (n : Reg) : Option Instr :=
  match n.toNat with
  | 0 => some .addRm8Ib
  | 1 => some .orRm8Ib
  | 2 => some .adcRm8Ib
  | 3 => some .sbbRm8Ib
  | 4 => some .andRm8Ib
  | 5 => some .subRm8Ib
  | 6 => some .xorRm8Ib
  | 7 => some .cmpRm8Ib
  | _ => none

/-- The operations of opcode 81 by ModRM reg (R122, R140). -/
def group81 (n : Reg) : Option Instr :=
  match n.toNat with
  | 0 => some .addRm32Id
  | 1 => some .orRm32Id
  | 2 => some .adcRm32Id
  | 3 => some .sbbRm32Id
  | 4 => some .andRm32Id
  | 5 => some .subRm32Id
  | 6 => some .xorRm32Id
  | 7 => some .cmpRm32Id
  | _ => none

/-- The operations of opcode 83 by ModRM reg (R122, R140). -/
def group83 (n : Reg) : Option Instr :=
  match n.toNat with
  | 0 => some .addRm32Ib
  | 1 => some .orRm32Ib
  | 2 => some .adcRm32Ib
  | 3 => some .sbbRm32Ib
  | 4 => some .andRm32Ib
  | 5 => some .subRm32Ib
  | 6 => some .xorRm32Ib
  | 7 => some .cmpRm32Ib
  | _ => none

/-- The operations of opcode 8F by ModRM reg (R122, R140). -/
def group8F (n : Reg) : Option Instr :=
  match n.toNat with
  | 0 => some .popRm32
  | _ => none

/-- The operations of opcode C0 by ModRM reg (R122, R140). -/
def groupC0 (n : Reg) : Option Instr :=
  match n.toNat with
  | 0 => some .rolRm8Ib
  | 1 => some .rorRm8Ib
  | 2 => some .rclRm8Ib
  | 3 => some .rcrRm8Ib
  | 4 => some .shlRm8Ib
  | 5 => some .shrRm8Ib
  | 7 => some .sarRm8Ib
  | _ => none

/-- The operations of opcode C1 by ModRM reg (R122, R140). -/
def groupC1 (n : Reg) : Option Instr :=
  match n.toNat with
  | 0 => some .rolRm32Ib
  | 1 => some .rorRm32Ib
  | 2 => some .rclRm32Ib
  | 3 => some .rcrRm32Ib
  | 4 => some .shlRm32Ib
  | 5 => some .shrRm32Ib
  | 7 => some .sarRm32Ib
  | _ => none

/-- The operations of opcode C6 by ModRM reg (R122, R140). -/
def groupC6 (n : Reg) : Option Instr :=
  match n.toNat with
  | 0 => some .movRm8Ib
  | _ => none

/-- The operations of opcode C7 by ModRM reg (R122, R140). -/
def groupC7 (n : Reg) : Option Instr :=
  match n.toNat with
  | 0 => some .movRm32Id
  | _ => none

/-- The operations of opcode D0 by ModRM reg (R122, R140). -/
def groupD0 (n : Reg) : Option Instr :=
  match n.toNat with
  | 0 => some .rolRm8One
  | 1 => some .rorRm8One
  | 2 => some .rclRm8One
  | 3 => some .rcrRm8One
  | 4 => some .shlRm8One
  | 5 => some .shrRm8One
  | 7 => some .sarRm8One
  | _ => none

/-- The operations of opcode D1 by ModRM reg (R122, R140). -/
def groupD1 (n : Reg) : Option Instr :=
  match n.toNat with
  | 0 => some .rolRm32One
  | 1 => some .rorRm32One
  | 2 => some .rclRm32One
  | 3 => some .rcrRm32One
  | 4 => some .shlRm32One
  | 5 => some .shrRm32One
  | 7 => some .sarRm32One
  | _ => none

/-- The operations of opcode D2 by ModRM reg (R122, R140). -/
def groupD2 (n : Reg) : Option Instr :=
  match n.toNat with
  | 0 => some .rolRm8Cl
  | 1 => some .rorRm8Cl
  | 2 => some .rclRm8Cl
  | 3 => some .rcrRm8Cl
  | 4 => some .shlRm8Cl
  | 5 => some .shrRm8Cl
  | 7 => some .sarRm8Cl
  | _ => none

/-- The operations of opcode D3 by ModRM reg (R122, R140). -/
def groupD3 (n : Reg) : Option Instr :=
  match n.toNat with
  | 0 => some .rolRm32Cl
  | 1 => some .rorRm32Cl
  | 2 => some .rclRm32Cl
  | 3 => some .rcrRm32Cl
  | 4 => some .shlRm32Cl
  | 5 => some .shrRm32Cl
  | 7 => some .sarRm32Cl
  | _ => none

/-- The operations of opcode F6 by ModRM reg (R122, R140). -/
def groupF6 (n : Reg) : Option Instr :=
  match n.toNat with
  | 0 => some .testRm8Ib
  | 2 => some .notRm8
  | 3 => some .negRm8
  | 4 => some .mulRm8
  | 5 => some .imulRm8
  | 6 => some .divRm8
  | 7 => some .idivRm8
  | _ => none

/-- The operations of opcode F7 by ModRM reg (R122, R140). -/
def groupF7 (n : Reg) : Option Instr :=
  match n.toNat with
  | 0 => some .testRm32Id
  | 2 => some .notRm32
  | 3 => some .negRm32
  | 4 => some .mulRm32
  | 5 => some .imulRm32
  | 6 => some .divRm32
  | 7 => some .idivRm32
  | _ => none

/-- The operations of opcode FE by ModRM reg (R122, R140). -/
def groupFE (n : Reg) : Option Instr :=
  match n.toNat with
  | 0 => some .incRm8
  | 1 => some .decRm8
  | _ => none

/-- The operations of opcode FF by ModRM reg (R122, R140). -/
def groupFF (n : Reg) : Option Instr :=
  match n.toNat with
  | 0 => some .incRm32
  | 1 => some .decRm32
  | 2 => some .callRm32
  | 4 => some .jmpRm32
  | 6 => some .pushRm32
  | _ => none

/-- The operations of opcode 0F 1F by ModRM reg (R122, R141). -/
def group0F1F (n : Reg) : Option Instr :=
  match n.toNat with
  | 0 => some .nopRm32
  | _ => none

/-- The memory forms of opcode D8 by ModRM reg (R142). -/
def x87MemD8 (n : Reg) : Option Instr :=
  match n.toNat with
  | 0 => some .faddM32fp
  | 1 => some .fmulM32fp
  | 2 => some .fcomM32fp
  | 3 => some .fcompM32fp
  | 4 => some .fsubM32fp
  | 5 => some .fsubrM32fp
  | 6 => some .fdivM32fp
  | 7 => some .fdivrM32fp
  | _ => none

/-- The register forms of opcode D8 by ModRM reg and rm (R142). -/
def x87RegD8 (n m : Reg) : Option Instr :=
  match n.toNat, m.toNat with
  | 0, _ => some .faddSt0Sti
  | 1, _ => some .fmulSt0Sti
  | 2, _ => some .fcomSti
  | 3, _ => some .fcompSti
  | 4, _ => some .fsubSt0Sti
  | 5, _ => some .fsubrSt0Sti
  | 6, _ => some .fdivSt0Sti
  | 7, _ => some .fdivrSt0Sti
  | _, _ => none

/-- The memory forms of opcode D9 by ModRM reg (R142). -/
def x87MemD9 (n : Reg) : Option Instr :=
  match n.toNat with
  | 0 => some .fldM32fp
  | 2 => some .fstM32fp
  | 3 => some .fstpM32fp
  | 5 => some .fldcwM16
  | 7 => some .fnstcwM16
  | _ => none

/-- The register forms of opcode D9 by ModRM reg and rm (R142). -/
def x87RegD9 (n m : Reg) : Option Instr :=
  match n.toNat, m.toNat with
  | 0, _ => some .fldSti
  | 1, _ => some .fxchSti
  | 2, 0 => some .fnop
  | 4, 0 => some .fchs
  | 4, 1 => some .fabs
  | 4, 4 => some .ftst
  | 5, 0 => some .fld1
  | 5, 1 => some .fldl2t
  | 5, 2 => some .fldl2e
  | 5, 3 => some .fldpi
  | 5, 4 => some .fldlg2
  | 5, 5 => some .fldln2
  | 5, 6 => some .fldz
  | 6, 6 => some .fdecstp
  | 6, 7 => some .fincstp
  | 7, 2 => some .fsqrt
  | _, _ => none

/-- The memory forms of opcode DA by ModRM reg (R142). -/
def x87MemDA (n : Reg) : Option Instr :=
  match n.toNat with
  | 0 => some .fiaddM32int
  | 1 => some .fimulM32int
  | 2 => some .ficomM32int
  | 3 => some .ficompM32int
  | 4 => some .fisubM32int
  | 5 => some .fisubrM32int
  | 6 => some .fidivM32int
  | 7 => some .fidivrM32int
  | _ => none

/-- The register forms of opcode DA by ModRM reg and rm (R142). -/
def x87RegDA (n m : Reg) : Option Instr :=
  match n.toNat, m.toNat with
  | 0, _ => some .fcmovbSt0Sti
  | 1, _ => some .fcmoveSt0Sti
  | 2, _ => some .fcmovbeSt0Sti
  | 3, _ => some .fcmovuSt0Sti
  | 5, 1 => some .fucompp
  | _, _ => none

/-- The memory forms of opcode DB by ModRM reg (R142). -/
def x87MemDB (n : Reg) : Option Instr :=
  match n.toNat with
  | 0 => some .fildM32int
  | 2 => some .fistM32int
  | 3 => some .fistpM32int
  | 5 => some .fldM80fp
  | 7 => some .fstpM80fp
  | _ => none

/-- The register forms of opcode DB by ModRM reg and rm (R142). -/
def x87RegDB (n m : Reg) : Option Instr :=
  match n.toNat, m.toNat with
  | 0, _ => some .fcmovnbSt0Sti
  | 1, _ => some .fcmovneSt0Sti
  | 2, _ => some .fcmovnbeSt0Sti
  | 3, _ => some .fcmovnuSt0Sti
  | 4, 2 => some .fnclex
  | 4, 3 => some .fninit
  | 5, _ => some .fucomiSt0Sti
  | 6, _ => some .fcomiSt0Sti
  | _, _ => none

/-- The memory forms of opcode DC by ModRM reg (R142). -/
def x87MemDC (n : Reg) : Option Instr :=
  match n.toNat with
  | 0 => some .faddM64fp
  | 1 => some .fmulM64fp
  | 2 => some .fcomM64fp
  | 3 => some .fcompM64fp
  | 4 => some .fsubM64fp
  | 5 => some .fsubrM64fp
  | 6 => some .fdivM64fp
  | 7 => some .fdivrM64fp
  | _ => none

/-- The register forms of opcode DC by ModRM reg and rm (R142). -/
def x87RegDC (n m : Reg) : Option Instr :=
  match n.toNat, m.toNat with
  | 0, _ => some .faddStiSt0
  | 1, _ => some .fmulStiSt0
  | 4, _ => some .fsubrStiSt0
  | 5, _ => some .fsubStiSt0
  | 6, _ => some .fdivrStiSt0
  | 7, _ => some .fdivStiSt0
  | _, _ => none

/-- The memory forms of opcode DD by ModRM reg (R142). -/
def x87MemDD (n : Reg) : Option Instr :=
  match n.toNat with
  | 0 => some .fldM64fp
  | 2 => some .fstM64fp
  | 3 => some .fstpM64fp
  | 7 => some .fnstswM16
  | _ => none

/-- The register forms of opcode DD by ModRM reg and rm (R142). -/
def x87RegDD (n m : Reg) : Option Instr :=
  match n.toNat, m.toNat with
  | 0, _ => some .ffreeSti
  | 2, _ => some .fstSti
  | 3, _ => some .fstpSti
  | 4, _ => some .fucomSti
  | 5, _ => some .fucompSti
  | _, _ => none

/-- The memory forms of opcode DE by ModRM reg (R142). -/
def x87MemDE (n : Reg) : Option Instr :=
  match n.toNat with
  | 0 => some .fiaddM16int
  | 1 => some .fimulM16int
  | 2 => some .ficomM16int
  | 3 => some .ficompM16int
  | 4 => some .fisubM16int
  | 5 => some .fisubrM16int
  | 6 => some .fidivM16int
  | 7 => some .fidivrM16int
  | _ => none

/-- The register forms of opcode DE by ModRM reg and rm (R142). -/
def x87RegDE (n m : Reg) : Option Instr :=
  match n.toNat, m.toNat with
  | 0, _ => some .faddpStiSt0
  | 1, _ => some .fmulpStiSt0
  | 3, 1 => some .fcompp
  | 4, _ => some .fsubrpStiSt0
  | 5, _ => some .fsubpStiSt0
  | 6, _ => some .fdivrpStiSt0
  | 7, _ => some .fdivpStiSt0
  | _, _ => none

/-- The memory forms of opcode DF by ModRM reg (R142). -/
def x87MemDF (n : Reg) : Option Instr :=
  match n.toNat with
  | 0 => some .fildM16int
  | 2 => some .fistM16int
  | 3 => some .fistpM16int
  | 5 => some .fildM64int
  | 7 => some .fistpM64int
  | _ => none

/-- The register forms of opcode DF by ModRM reg and rm (R142). -/
def x87RegDF (n m : Reg) : Option Instr :=
  match n.toNat, m.toNat with
  | 4, 0 => some .fnstswAx
  | 5, _ => some .fucomipSt0Sti
  | 6, _ => some .fcomipSt0Sti
  | _, _ => none

/-- The one-byte opcode map (R140). 0x0F and the prefixes are handled before it. -/
def primary (b : Byte) : Option Entry :=
  match b.toNat with
  | 0x00 => some (.modrm .addRm8R8)
  | 0x01 => some (.modrm .addRm32R32)
  | 0x02 => some (.modrm .addR8Rm8)
  | 0x03 => some (.modrm .addR32Rm32)
  | 0x04 => some (.plain .addAlIb)
  | 0x05 => some (.plain .addEaxId)
  | 0x08 => some (.modrm .orRm8R8)
  | 0x09 => some (.modrm .orRm32R32)
  | 0x0A => some (.modrm .orR8Rm8)
  | 0x0B => some (.modrm .orR32Rm32)
  | 0x0C => some (.plain .orAlIb)
  | 0x0D => some (.plain .orEaxId)
  | 0x10 => some (.modrm .adcRm8R8)
  | 0x11 => some (.modrm .adcRm32R32)
  | 0x12 => some (.modrm .adcR8Rm8)
  | 0x13 => some (.modrm .adcR32Rm32)
  | 0x14 => some (.plain .adcAlIb)
  | 0x15 => some (.plain .adcEaxId)
  | 0x18 => some (.modrm .sbbRm8R8)
  | 0x19 => some (.modrm .sbbRm32R32)
  | 0x1A => some (.modrm .sbbR8Rm8)
  | 0x1B => some (.modrm .sbbR32Rm32)
  | 0x1C => some (.plain .sbbAlIb)
  | 0x1D => some (.plain .sbbEaxId)
  | 0x20 => some (.modrm .andRm8R8)
  | 0x21 => some (.modrm .andRm32R32)
  | 0x22 => some (.modrm .andR8Rm8)
  | 0x23 => some (.modrm .andR32Rm32)
  | 0x24 => some (.plain .andAlIb)
  | 0x25 => some (.plain .andEaxId)
  | 0x28 => some (.modrm .subRm8R8)
  | 0x29 => some (.modrm .subRm32R32)
  | 0x2A => some (.modrm .subR8Rm8)
  | 0x2B => some (.modrm .subR32Rm32)
  | 0x2C => some (.plain .subAlIb)
  | 0x2D => some (.plain .subEaxId)
  | 0x30 => some (.modrm .xorRm8R8)
  | 0x31 => some (.modrm .xorRm32R32)
  | 0x32 => some (.modrm .xorR8Rm8)
  | 0x33 => some (.modrm .xorR32Rm32)
  | 0x34 => some (.plain .xorAlIb)
  | 0x35 => some (.plain .xorEaxId)
  | 0x38 => some (.modrm .cmpRm8R8)
  | 0x39 => some (.modrm .cmpRm32R32)
  | 0x3A => some (.modrm .cmpR8Rm8)
  | 0x3B => some (.modrm .cmpR32Rm32)
  | 0x3C => some (.plain .cmpAlIb)
  | 0x3D => some (.plain .cmpEaxId)
  | 0x40 | 0x41 | 0x42 | 0x43 | 0x44 | 0x45 | 0x46 | 0x47 => some (.plusR .incR32)
  | 0x48 | 0x49 | 0x4A | 0x4B | 0x4C | 0x4D | 0x4E | 0x4F => some (.plusR .decR32)
  | 0x50 | 0x51 | 0x52 | 0x53 | 0x54 | 0x55 | 0x56 | 0x57 => some (.plusR .pushR32)
  | 0x58 | 0x59 | 0x5A | 0x5B | 0x5C | 0x5D | 0x5E | 0x5F => some (.plusR .popR32)
  | 0x60 => some (.plain .pushad)
  | 0x61 => some (.plain .popad)
  | 0x68 => some (.plain .pushId)
  | 0x69 => some (.modrm .imulR32Rm32Id)
  | 0x6A => some (.plain .pushIb)
  | 0x6B => some (.modrm .imulR32Rm32Ib)
  | 0x70 => some (.plain .joRel8)
  | 0x71 => some (.plain .jnoRel8)
  | 0x72 => some (.plain .jbRel8)
  | 0x73 => some (.plain .jaeRel8)
  | 0x74 => some (.plain .jeRel8)
  | 0x75 => some (.plain .jneRel8)
  | 0x76 => some (.plain .jbeRel8)
  | 0x77 => some (.plain .jaRel8)
  | 0x78 => some (.plain .jsRel8)
  | 0x79 => some (.plain .jnsRel8)
  | 0x7A => some (.plain .jpRel8)
  | 0x7B => some (.plain .jnpRel8)
  | 0x7C => some (.plain .jlRel8)
  | 0x7D => some (.plain .jgeRel8)
  | 0x7E => some (.plain .jleRel8)
  | 0x7F => some (.plain .jgRel8)
  | 0x80 => some (.group group80)
  | 0x81 => some (.group group81)
  | 0x83 => some (.group group83)
  | 0x84 => some (.modrm .testRm8R8)
  | 0x85 => some (.modrm .testRm32R32)
  | 0x88 => some (.modrm .movRm8R8)
  | 0x89 => some (.modrm .movRm32R32)
  | 0x8A => some (.modrm .movR8Rm8)
  | 0x8B => some (.modrm .movR32Rm32)
  | 0x8D => some (.mem .leaR32M)
  | 0x8F => some (.group group8F)
  | 0x90 => some (.plain .nop)
  | 0x98 => some (.plain .cwde)
  | 0x99 => some (.plain .cdq)
  | 0x9B => some (.plain .wait)
  | 0xA0 => some (.plain .movAlMoffs8)
  | 0xA1 => some (.plain .movEaxMoffs32)
  | 0xA2 => some (.plain .movMoffs8Al)
  | 0xA3 => some (.plain .movMoffs32Eax)
  | 0xA4 => some (.plain .movsb)
  | 0xA5 => some (.plain .movsd)
  | 0xA6 => some (.plain .cmpsb)
  | 0xA7 => some (.plain .cmpsd)
  | 0xA8 => some (.plain .testAlIb)
  | 0xA9 => some (.plain .testEaxId)
  | 0xAA => some (.plain .stosb)
  | 0xAB => some (.plain .stosd)
  | 0xAC => some (.plain .lodsb)
  | 0xAD => some (.plain .lodsd)
  | 0xAE => some (.plain .scasb)
  | 0xAF => some (.plain .scasd)
  | 0xB0 | 0xB1 | 0xB2 | 0xB3 | 0xB4 | 0xB5 | 0xB6 | 0xB7 => some (.plusR .movR8Ib)
  | 0xB8 | 0xB9 | 0xBA | 0xBB | 0xBC | 0xBD | 0xBE | 0xBF => some (.plusR .movR32Id)
  | 0xC0 => some (.group groupC0)
  | 0xC1 => some (.group groupC1)
  | 0xC2 => some (.plain .retIw)
  | 0xC3 => some (.plain .ret)
  | 0xC4 => some (.mem .lesR32M)
  | 0xC5 => some (.mem .ldsR32M)
  | 0xC6 => some (.group groupC6)
  | 0xC7 => some (.group groupC7)
  | 0xC9 => some (.plain .leave)
  | 0xCC => some (.plain .int3)
  | 0xCD => some (.plain .intIb)
  | 0xD0 => some (.group groupD0)
  | 0xD1 => some (.group groupD1)
  | 0xD2 => some (.group groupD2)
  | 0xD3 => some (.group groupD3)
  | 0xD8 => some (.x87 x87MemD8 x87RegD8)
  | 0xD9 => some (.x87 x87MemD9 x87RegD9)
  | 0xDA => some (.x87 x87MemDA x87RegDA)
  | 0xDB => some (.x87 x87MemDB x87RegDB)
  | 0xDC => some (.x87 x87MemDC x87RegDC)
  | 0xDD => some (.x87 x87MemDD x87RegDD)
  | 0xDE => some (.x87 x87MemDE x87RegDE)
  | 0xDF => some (.x87 x87MemDF x87RegDF)
  | 0xE8 => some (.plain .callRel32)
  | 0xE9 => some (.plain .jmpRel32)
  | 0xEB => some (.plain .jmpRel8)
  | 0xF4 => some (.plain .hlt)
  | 0xF5 => some (.plain .cmc)
  | 0xF6 => some (.group groupF6)
  | 0xF7 => some (.group groupF7)
  | 0xF8 => some (.plain .clc)
  | 0xF9 => some (.plain .stc)
  | 0xFC => some (.plain .cld)
  | 0xFD => some (.plain .std)
  | 0xFE => some (.group groupFE)
  | 0xFF => some (.group groupFF)
  | _ => none

/-- The map of the byte after 0x0F (R141). -/
def secondary (b : Byte) : Option Entry :=
  match b.toNat with
  | 0x1F => some (.group group0F1F)
  | 0x40 => some (.modrm .cmovoR32Rm32)
  | 0x41 => some (.modrm .cmovnoR32Rm32)
  | 0x42 => some (.modrm .cmovbR32Rm32)
  | 0x43 => some (.modrm .cmovaeR32Rm32)
  | 0x44 => some (.modrm .cmoveR32Rm32)
  | 0x45 => some (.modrm .cmovneR32Rm32)
  | 0x46 => some (.modrm .cmovbeR32Rm32)
  | 0x47 => some (.modrm .cmovaR32Rm32)
  | 0x48 => some (.modrm .cmovsR32Rm32)
  | 0x49 => some (.modrm .cmovnsR32Rm32)
  | 0x4A => some (.modrm .cmovpR32Rm32)
  | 0x4B => some (.modrm .cmovnpR32Rm32)
  | 0x4C => some (.modrm .cmovlR32Rm32)
  | 0x4D => some (.modrm .cmovgeR32Rm32)
  | 0x4E => some (.modrm .cmovleR32Rm32)
  | 0x4F => some (.modrm .cmovgR32Rm32)
  | 0x80 => some (.plain .joRel32)
  | 0x81 => some (.plain .jnoRel32)
  | 0x82 => some (.plain .jbRel32)
  | 0x83 => some (.plain .jaeRel32)
  | 0x84 => some (.plain .jeRel32)
  | 0x85 => some (.plain .jneRel32)
  | 0x86 => some (.plain .jbeRel32)
  | 0x87 => some (.plain .jaRel32)
  | 0x88 => some (.plain .jsRel32)
  | 0x89 => some (.plain .jnsRel32)
  | 0x8A => some (.plain .jpRel32)
  | 0x8B => some (.plain .jnpRel32)
  | 0x8C => some (.plain .jlRel32)
  | 0x8D => some (.plain .jgeRel32)
  | 0x8E => some (.plain .jleRel32)
  | 0x8F => some (.plain .jgRel32)
  | 0x90 => some (.modrm .setoRm8)
  | 0x91 => some (.modrm .setnoRm8)
  | 0x92 => some (.modrm .setbRm8)
  | 0x93 => some (.modrm .setaeRm8)
  | 0x94 => some (.modrm .seteRm8)
  | 0x95 => some (.modrm .setneRm8)
  | 0x96 => some (.modrm .setbeRm8)
  | 0x97 => some (.modrm .setaRm8)
  | 0x98 => some (.modrm .setsRm8)
  | 0x99 => some (.modrm .setnsRm8)
  | 0x9A => some (.modrm .setpRm8)
  | 0x9B => some (.modrm .setnpRm8)
  | 0x9C => some (.modrm .setlRm8)
  | 0x9D => some (.modrm .setgeRm8)
  | 0x9E => some (.modrm .setleRm8)
  | 0x9F => some (.modrm .setgRm8)
  | 0xAF => some (.modrm .imulR32Rm32)
  | 0xB2 => some (.mem .lssR32M)
  | 0xB4 => some (.mem .lfsR32M)
  | 0xB5 => some (.mem .lgsR32M)
  | 0xB6 => some (.modrm .movzxR32Rm8)
  | 0xB7 => some (.modrm .movzxR32Rm16)
  | 0xBC => some (.modrm .bsfR32Rm32)
  | 0xBD => some (.modrm .bsrR32Rm32)
  | 0xBE => some (.modrm .movsxR32Rm8)
  | 0xBF => some (.modrm .movsxR32Rm16)
  | _ => none

/-- The opcodes that honour the operand-size prefix (R105). -/
def honours16 : OpKey → Bool
  | .one b => match b.toNat with
    | 0x89 | 0x8B | 0xA1 | 0xA3 | 0xC7 | 0x90 => true
    | 0xB8 | 0xB9 | 0xBA | 0xBB | 0xBC | 0xBD | 0xBE | 0xBF => true
    | _ => false
  | .two b => b == 0x1F

/-! ### Decoding -/

/-- No prefix (R101). -/
def noPrefixes : Prefixes := ⟨.none, false, .none⟩

/-- The prefix bytes and what each does (R101); `none` for a byte that is no prefix. -/
def prefixEffect (b : Byte) (p : Prefixes) : Option Prefixes :=
  match b.toNat with
  | 0x64 => some { p with seg := .fs }
  | 0x65 => some { p with seg := .gs }
  | 0x26 | 0x2E | 0x36 | 0x3E => some p
  | 0x66 => some { p with opsizeOverride := true }
  | 0x67 => some p
  | 0xF0 => some p
  | 0xF2 => some { p with rep := .repne }
  | 0xF3 => some { p with rep := .repe }
  | _ => none

/-- The prefix scan (R101, R102): it stops at the first byte that is no prefix. -/
def scanPrefixes : Prefixes → List Byte → Prefixes × List Byte
  | p, [] => (p, [])
  | p, b :: rest =>
    match prefixEffect b p with
    | some p' => scanPrefixes p' rest
    | none => (p, b :: rest)

/-- The displacement after a base, by mod (R112). -/
def decodeDisp (mod : BitVec 2) (bytes : List Byte) : Except DecodeError (Disp × List Byte) :=
  match mod.toNat with
  | 0 => .ok (.none, bytes)
  | 1 =>
    match bytes with
    | d :: rest => .ok (.disp8 d, rest)
    | [] => .error .truncated
  | _ =>
    match take4 bytes with
    | .ok (d, rest) => .ok (.disp32 d, rest)
    | .error e => .error e

/-- The SIB byte and the displacement after it (R113, R114). -/
def decodeSib (mod : BitVec 2) (bytes : List Byte) : Except DecodeError (MemOp × List Byte) :=
  match bytes with
  | [] => .error .truncated
  | s :: rest =>
    if mod = 0 ∧ rmField s = 5 then
      match take4 rest with
      | .ok (d, rest') => .ok (.sibAbs (modField s) (regField s) d, rest')
      | .error e => .error e
    else
      match decodeDisp mod rest with
      | .ok (d, rest') => .ok (.sib (modField s) (regField s) (rmField s) d, rest')
      | .error e => .error e

/-- The memory operand of a ModRM byte with mod other than 3 (R112). -/
def decodeMem (m : Byte) (bytes : List Byte) : Except DecodeError (MemOp × List Byte) :=
  if rmField m = 4 then decodeSib (modField m) bytes
  else if modField m = 0 ∧ rmField m = 5 then
    match take4 bytes with
    | .ok (d, rest) => .ok (.abs d, rest)
    | .error e => .error e
  else
    match decodeDisp (modField m) bytes with
    | .ok (d, rest) => .ok (.base (rmField m) d, rest)
    | .error e => .error e

/-- The `rm` operand (R111). -/
def decodeRM (m : Byte) (bytes : List Byte) : Except DecodeError (RM × List Byte) :=
  if modField m = 3 then .ok (.reg (rmField m), bytes)
  else
    match decodeMem m bytes with
    | .ok (o, rest) => .ok (.mem o, rest)
    | .error e => .error e

/-- The immediate, offset or moffs field (R130), put into the record `o`. -/
def decodeImm (k : ImmKind) (osz : Bool) (o : Operands) (bytes : List Byte) :
    Except DecodeError (Operands × List Byte) :=
  match k with
  | .none => .ok (o, bytes)
  | .ib =>
    match bytes with
    | b :: rest => .ok ({ o with imm := b.setWidth 32 }, rest)
    | [] => .error .truncated
  | .ibSext =>
    match bytes with
    | b :: rest => .ok ({ o with imm := b.signExtend 32 }, rest)
    | [] => .error .truncated
  | .iw => takeHalf o bytes
  | .id => takeWord o bytes
  | .idOrIw => if osz then takeHalf o bytes else takeWord o bytes
  | .rel8 =>
    match bytes with
    | b :: rest => .ok ({ o with rel := b.signExtend 32 }, rest)
    | [] => .error .truncated
  | .rel32 =>
    match take4 bytes with
    | .ok (w, rest) => .ok ({ o with rel := w }, rest)
    | .error e => .error e
  | .moffs32 =>
    match take4 bytes with
    | .ok (w, rest) => .ok ({ o with moffs := w }, rest)
    | .error e => .error e
where
  /-- A two-byte immediate, zero-extended. -/
  takeHalf (o : Operands) (bytes : List Byte) : Except DecodeError (Operands × List Byte) :=
    match bytes with
    | b0 :: b1 :: rest => .ok ({ o with imm := (b1 ++ b0).setWidth 32 }, rest)
    | _ => .error .truncated
  /-- A four-byte immediate. -/
  takeWord (o : Operands) (bytes : List Byte) : Except DecodeError (Operands × List Byte) :=
    match take4 bytes with
    | .ok (w, rest) => .ok ({ o with imm := w }, rest)
    | .error e => .error e

/-- The rest of an instruction whose row is known: its immediate field (R106). -/
def finishRow (i : Instr) (osz : Bool) (reg : Reg) (rm : RM) (bytes : List Byte) :
    Except DecodeError (Instr × Operands × List Byte) :=
  match decodeImm i.row.imm osz ⟨reg, rm, 0, 0, 0⟩ bytes with
  | .ok (o, rest) => .ok (i, o, rest)
  | .error e => .error e

/-- A row whose ModRM byte `m` has been read: its addressing bytes, then its immediate (R106). -/
def decodeWithRM (i : Instr) (osz : Bool) (m : Byte) (bytes : List Byte) :
    Except DecodeError (Instr × Operands × List Byte) :=
  match decodeRM m bytes with
  | .ok (rm, rest) => finishRow i osz (regField m) rm rest
  | .error e => .error e

/-- What follows the opcode bytes, by the table's entry (R150). `opcode` is the last opcode byte. -/
def decodeEntry (key : OpKey) (opcode : Byte) (e : Entry) (osz : Bool) (bytes : List Byte) :
    Except DecodeError (Instr × Operands × List Byte) :=
  match e with
  | .plain i => finishRow i osz 0 (.reg 0) bytes
  | .plusR i => finishRow i osz (rmField opcode) (.reg 0) bytes
  | .modrm i =>
    match bytes with
    | [] => .error .truncated
    | m :: rest => decodeWithRM i osz m rest
  | .mem i =>
    match bytes with
    | [] => .error .truncated
    | m :: rest =>
      if modField m = 3 then .error (.unsupportedAddressingForm key m)
      else decodeWithRM i osz m rest
  | .group g =>
    match bytes with
    | [] => .error .truncated
    | m :: rest =>
      match g (regField m) with
      | some i => decodeWithRM i osz m rest
      | none => .error (.unsupportedGroupExtension key m)
  | .x87 mems regs =>
    match bytes with
    | [] => .error .truncated
    | m :: rest =>
      match (if modField m = 3 then regs (regField m) (rmField m) else mems (regField m)) with
      | some i => decodeWithRM i osz m rest
      | none => .error (.unsupportedGroupExtension key m)

/-- The table look-up and the operand-size check (R104, R105), then the rest of the instruction. -/
def decodeKey (key : OpKey) (opcode : Byte) (e : Option Entry) (osz : Bool) (bytes : List Byte) :
    Except DecodeError (Instr × Operands × List Byte) :=
  match e with
  | none => .error (.unknownOpcode key)
  | some e =>
    if osz && !honours16 key then .error (.unsupportedOperandSize key)
    else decodeEntry key opcode e osz bytes

/-- An instruction after its prefixes: the opcode byte, or 0x0F and the secondary opcode byte (R104). -/
def decodeOpcode (osz : Bool) : List Byte → Except DecodeError (Instr × Operands × List Byte)
  | [] => .error .truncated
  | b :: rest =>
    if b = 0x0F then
      match rest with
      | [] => .error .truncated
      | b2 :: rest' => decodeKey (.two b2) b2 (secondary b2) osz rest'
    else decodeKey (.one b) b (primary b) osz rest

/-- The decoder (R150): the instruction at the head of the bytes, and the bytes after it. -/
def decode (bytes : List Byte) : Except DecodeError (Code × List Byte) :=
  let scanned := scanPrefixes noPrefixes bytes
  match decodeOpcode scanned.1.opsizeOverride scanned.2 with
  | .ok (i, o, rest) => .ok (⟨i, scanned.1, o⟩, rest)
  | .error e => .error e

/-- The instruction the decoder reads from a word of opcode_table.json. The table numbers a two-byte key with
its first fetched byte most significant (R151), so a word whose bits 15..8 are an escape byte (0F or D8 to DF)
is that byte and then bits 7..0; any other word is bits 7..0 and then the later bytes in order (log 9). Bytes
above `nbits` are 0. -/
def tableBytes (nbits w : Nat) : List Byte :=
  let byte (k : Nat) : Byte := if 8 * k < nbits then BitVec.ofNat 8 (w >>> (8 * k)) else 0
  let hi := (byte 1).toNat
  if hi = 0x0F ∨ 0xD8 ≤ hi ∧ hi ≤ 0xDF then [byte 1, byte 0, byte 2, byte 3, 0, 0, 0, 0, 0, 0, 0, 0]
  else [byte 0, byte 1, byte 2, byte 3, 0, 0, 0, 0, 0, 0, 0, 0]

/-- The instruction the decoder reads from the word `w` of `nbits` bits, numbered as spec/opcode_table.json
numbers it (`tableBytes`); every later byte is 0. -/
def decodeTableWord (nbits w : Nat) : Option Instr :=
  match decode (tableBytes nbits w) with
  | .ok (c, _) => some c.instr
  | .error _ => none

/-! ### Encoding -/

/-- The segment prefix (R101). -/
def encodeSeg : Seg → List Byte
  | .none => []
  | .fs => [0x64]
  | .gs => [0x65]

/-- The operand-size prefix (R101). -/
def encodeOpsize (osz : Bool) : List Byte := if osz then [0x66] else []

/-- The repeat prefix (R101). -/
def encodeRep : Rep → List Byte
  | .none => []
  | .repe => [0xF3]
  | .repne => [0xF2]

/-- A segment prefix, the operand-size prefix and a repeat prefix, each if the record has it (R101). -/
def encodePrefixes (p : Prefixes) : List Byte :=
  encodeSeg p.seg ++ (encodeOpsize p.opsizeOverride ++ encodeRep p.rep)

/-- The opcode bytes (R104); `r` goes into the low three bits of a +r opcode. -/
def encodeKey (row : Row) (r : Reg) : List Byte :=
  match row.key, row.shape with
  | .one b, .plusR => [b ||| r.setWidth 8]
  | .one b, _ => [b]
  | .two b, _ => [0x0F, b]

/-- mod of a displacement (R112). -/
def dispMod : Disp → BitVec 2
  | .none => 0
  | .disp8 _ => 1
  | .disp32 _ => 2

/-- The displacement bytes (R117). -/
def encodeDisp : Disp → List Byte
  | .none => []
  | .disp8 d => [d]
  | .disp32 d => bytes4 d

/-- The ModRM byte, SIB byte and displacement of a memory operand (R112 to R114). -/
def encodeMem (reg : Reg) : MemOp → List Byte
  | .abs d => joinFields 0 reg 5 :: bytes4 d
  | .base b d => joinFields (dispMod d) reg b :: encodeDisp d
  | .sib sc ix b d => joinFields (dispMod d) reg 4 :: joinFields sc ix b :: encodeDisp d
  | .sibAbs sc ix d => joinFields 0 reg 4 :: joinFields sc ix 5 :: bytes4 d

/-- The ModRM byte and the addressing bytes of an operand (R111). -/
def encodeRM (reg : Reg) : RM → List Byte
  | .reg r => [joinFields 3 reg r]
  | .mem m => encodeMem reg m

/-- The ModRM and addressing bytes of a row (R106). -/
def encodeModRM (s : Shape) (o : Operands) : List Byte :=
  match s with
  | .none => []
  | .plusR => []
  | .reg => encodeRM o.reg o.rm
  | .mem => encodeRM o.reg o.rm
  | .ext n => encodeRM n o.rm
  | .extMem n => encodeRM n o.rm
  | .st n => encodeRM n o.rm
  | .fixed n m => encodeRM n (.reg m)

/-- The bytes of the immediate field (R130). -/
def encodeImm (k : ImmKind) (osz : Bool) (o : Operands) : List Byte :=
  match k with
  | .none => []
  | .ib => [o.imm.extractLsb' 0 8]
  | .ibSext => [o.imm.extractLsb' 0 8]
  | .iw => bytes2 o.imm
  | .id => bytes4 o.imm
  | .idOrIw => if osz then bytes2 o.imm else bytes4 o.imm
  | .rel8 => [o.rel.extractLsb' 0 8]
  | .rel32 => bytes4 o.rel
  | .moffs32 => bytes4 o.moffs

/-- An instruction without its prefixes. -/
def encodeBody (i : Instr) (osz : Bool) (o : Operands) : List Byte :=
  encodeKey i.row o.reg ++ (encodeModRM i.row.shape o ++ encodeImm i.row.imm osz o)

/-- The encoder: the bytes of a well-formed instruction (`Code.wf`). -/
def encode (c : Code) : List Byte :=
  encodePrefixes c.prefixes ++ encodeBody c.instr c.prefixes.opsizeOverride c.ops

end Sys2Proof
end

