-- ==== Sys2Proof/Config.lean ====
section
/-! DEFINITION. The parameters of spec/00_scope.md R11 to R18: those that are plain data are the
structure `Config`, which a state carries and no instruction writes (R58; log 2); those that are functions
of the host, and the NaN draw, are opaque constants. -/

namespace Sys2Proof

/-- `CARRY_IN_RULE` (R14): which carry rule ADC and SBB follow (R243). -/
inductive CarryInRule where
  | architectural
  | literalTwoOperand
  deriving DecidableEq, Repr, Inhabited

/-- `F80_LOAD` and `F80_STORE` (R16, R404): one setting per run. -/
inductive F80Mode where
  /-- `Rounded` loads and `Exact` stores. -/
  | roundedExact
  /-- Bytes 0..7 are a binary64; bytes 8..9 are ignored on a load and written 0 on a store. -/
  | asDouble
  deriving DecidableEq, Repr, Inhabited

/-- The plain-data parameters, fixed before the first step (R58). -/
structure Config where
  /-- `MEM_SIZE` (R11): the number of bytes of memory, 1 .. 2^32. -/
  memSize : Nat
  /-- `CARRY_IN_RULE` (R14). -/
  carryIn : CarryInRule
  /-- `F80_LOAD` and `F80_STORE` (R16). -/
  f80 : F80Mode
  /-- `FIST_OVERFLOW(16)` (R17). -/
  fistOverflow16 : BitVec 16
  /-- `FIST_OVERFLOW(32)` (R17). -/
  fistOverflow32 : BitVec 32
  /-- `FIST_OVERFLOW(64)` (R17). -/
  fistOverflow64 : BitVec 64
  /-- Whether the host installed an exception handler (R18, R520). -/
  excHandler : Bool
  /-- Whether the host installed an interrupt handler (R18, R523). -/
  intHandler : Bool
  deriving DecidableEq, Repr, Inhabited

/-- The defaults of the spec's table of open parameters (spec/92_eei_decisions.md).
DESIGN CHOICE: `memSize`, for which the spec gives none (log 1). -/
def Config.default : Config where
  memSize := 0x80000000
  carryIn := .architectural
  f80 := .roundedExact
  fistOverflow16 := 0x8000#16
  fistOverflow32 := 0x80000000#32
  fistOverflow64 := 0x8000000000000000#64
  excHandler := false
  intHandler := false

/-- The bounds the spec puts on `MEM_SIZE` (R11). -/
abbrev Config.wf (c : Config) : Prop := 1 ≤ c.memSize ∧ c.memSize ≤ 2 ^ 32

/-- `resolve_fs` (R13, R83): a total pure function the host supplies; nothing is known of it (log 4). -/
opaque Config.resolveFs : Word → Word

/-- `resolve_gs` (R13, R83): a total pure function the host supplies; nothing is known of it (log 4). -/
opaque Config.resolveGs : Word → Word

/-- The free value behind `NAN_RESULT` (R15): one binary64 pattern for each draw (log 3).
`Machine.nanResult` restricts it to NaN patterns, the one limit R15 sets. -/
opaque Config.nanDraw : Nat → F64

end Sys2Proof
end

