-- ==== Sys2Proof/Machine/State.lean ====
section
/-! DEFINITION. The machine's state (spec/10_state.md), its fault values (spec/60_exceptions.md R500 to
R509) and its reset state (R60, R550). -/

namespace Sys2Proof.Machine

/-- A fault value (R500): its kind, the data its rule names, and the address of the first byte of the
faulting instruction (`start`). A fault is delivered inside the step (`State.deliver`, R510): the step
answers a NEXT state, the exception handler's or the terminal one. `step` answers `Outcome.fault` only
on a state that is already terminal (R521: no later step is taken), with the fault it holds; that is
safe, since the machine takes no step there. -/
inductive Fault where
  /-- R501, code 1: raised by the decoder when the opcode has no row. -/
  | unknownOpcode (key : OpKey) (start : Word)
  /-- R502, code 2: raised by the decoder right after a ModRM byte that selects no admitted row. -/
  | unsupportedGroupExtension (key : OpKey) (modrm : Byte) (start : Word)
  /-- R503, code 3: raised by instruction fetch, by every operand, stack and string access and by
  `load`, when the range is not inside `[0, MEM_SIZE)`. `length` is `MEM_SIZE`. -/
  | memoryFault (addr : Word) (width : Nat) (length : Nat) (start : Word)
  /-- R504, code 4: raised by the decoder for mod = 3 where memory is needed. -/
  | unsupportedAddressingForm (key : OpKey) (modrm : Byte) (start : Word)
  /-- R505, code 5: raised by the decoder for 0x66 before an opcode that does not honour it. -/
  | unsupportedOperandSize (key : OpKey) (start : Word)
  /-- R506, code 6: raised by the parity-condition rows (R341). -/
  | unsupportedCondition (key : OpKey) (start : Word)
  /-- R507, code 7: raised by DIV and IDIV on a zero divisor. -/
  | divideByZero (key : OpKey) (start : Word)
  /-- R508, code 8: raised by DIV and IDIV when the quotient does not fit. -/
  | quotientOverflow (key : OpKey) (start : Word)
  /-- R509, code 9: raised by INT n and INT3 when no interrupt handler is installed. -/
  | unhandledInterrupt (n : Byte) (start : Word)
  deriving DecidableEq, Repr, Inhabited

/-- Why the model gives a step no meaning. -/
inductive Refusal where
  /-- Raised by an arm of `exec` whose instruction has no meaning yet. Safe: the model stops. -/
  | notModelled (mnemonic : String)
  /-- Raised by `step` when 2^32 prefix bytes follow each other without end (only possible with
  `MEM_SIZE` = 2^32 and a memory full of prefixes): R102 gives the scan no end there (log 11).
  Safe: the model stops where the hardware never finishes the instruction. -/
  | endlessPrefixRun
  deriving DecidableEq, Repr, Inhabited

/-- Memory (R70): the bytes that are not 0, by rising address; every other byte reads 0 (R71). -/
abbrev Memory := List Host.Cell

/-- The state of the machine (spec/10_state.md R30 to R55). -/
structure State where
  /-- The general registers EAX, ECX, EDX, EBX, ESP, EBP, ESI, EDI (R30). -/
  x : Vector Word 8
  /-- The instruction pointer (R35). While an instruction executes it still holds its start. -/
  eip : Word
  /-- The flags word (R40): CF 0, ZF 6, SF 7, DF 10, OF 11; the other bits are inert (R41). -/
  flags : BitVec 32
  /-- The x87 slots (R45). -/
  fpuStack : Vector F64 8
  /-- The slot that is ST(0) (R46). -/
  fpuTop : BitVec 3
  /-- The x87 status word (R50). -/
  fpuStatus : Half
  /-- The x87 control word (R51). -/
  fpuControl : Half
  /-- The x87 tag word (R52). -/
  fpuTag : Half
  /-- R53. -/
  halted : Bool
  /-- The executed-instruction count (R54). -/
  instrCount : Nat
  /-- Transient: the segment override (R55). -/
  seg : Seg
  /-- Transient: the operand-size prefix was seen (R55). -/
  opsizeOverride : Bool
  /-- Transient: the repeat prefix (R55). -/
  rep : Rep
  /-- Transient: the address after the instruction (R24, R150); 0 between instructions (log 7). -/
  next : Word
  /-- Transient: the operand fields of the decoded record (R24, R150); 0 between instructions (log 7). -/
  ops : Operands
  /-- The bytes of memory (R70). -/
  mem : Memory
  /-- The terminal state `Faulted(F)` of a run (R521, R560), once entered (log 17). -/
  terminal : Option Fault
  /-- The parameters fixed before the first step (R58). -/
  config : Config
  /-- The model's own count of the free values drawn so far (log 3). -/
  draws : Nat
  deriving DecidableEq, Repr, Inhabited

/-- Operands with every field 0. -/
def noOperands : Operands where
  reg := 0
  rm := .reg 0
  imm := 0
  rel := 0
  moffs := 0

/-- The state of R60 under the parameters `c`. -/
def State.resetWith (c : Config) : State where
  x := Vector.replicate 8 0
  eip := 0
  flags := 0
  fpuStack := Vector.replicate 8 0
  fpuTop := 0
  fpuStatus := 0
  fpuControl := 0x037F
  fpuTag := 0xFFFF
  halted := false
  instrCount := 0
  seg := .none
  opsizeOverride := false
  rep := .none
  next := 0
  ops := noOperands
  mem := []
  terminal := none
  config := c
  draws := 0

/-- The machine right after reset (R60, R550), under the default parameters. -/
def State.reset : State := State.resetWith Config.default

end Sys2Proof.Machine
end

