-- ==== Sys2Proof/Machine/Ops.lean ====
section
/-! DEFINITION. The named operations over memory and registers (spec/20_memory.md, spec/10_state.md), completing
an instruction, and delivering a fault or a software interrupt (spec/60_exceptions.md R510 to R524). -/

namespace Sys2Proof.Machine

/-! ### Memory -/

/-- The canonical form of a memory: addresses strictly rise, and no listed byte is 0, the value an unlisted
address reads as (R71). -/
abbrev Memory.wf (m : Memory) : Prop :=
  m.Pairwise (fun a b => a.1 < b.1) ∧ ∀ c ∈ m, c.2 ≠ 0

/-- Every listed address is inside `[0, size)` (R70). -/
abbrev Memory.within (m : Memory) (size : Nat) : Prop := ∀ c ∈ m, c.1 < size

/-- The byte at an address; an unlisted address reads 0 (R71). -/
def Memory.read (m : Memory) (a : Nat) : Byte :=
  match m with
  | [] => 0
  | c :: rest => if c.1 = a then c.2 else Memory.read rest a

/-- No byte is listed at `a` any more. -/
def Memory.erase (m : Memory) (a : Nat) : Memory := m.filter (fun c => c.1 != a)

/-- Lists a byte at `a`, before the first higher address. -/
def Memory.insert (m : Memory) (a : Nat) (v : Byte) : Memory :=
  match m with
  | [] => [(a, v)]
  | c :: rest => if a < c.1 then (a, v) :: c :: rest else c :: Memory.insert rest a v

/-- The memory after the byte `v` is stored at `a`. -/
def Memory.write (m : Memory) (a : Nat) (v : Byte) : Memory :=
  if v = 0 then m.erase a else (m.erase a).insert a v

/-- `MemRead` without its check (R74): `n` bytes from `a`, little-endian. -/
def Memory.readLE (m : Memory) (a n : Nat) : Nat :=
  match n with
  | 0 => 0
  | k + 1 => (m.read a).toNat + 256 * m.readLE (a + 1) k

/-- `MemWrite` without its check (R74): the `n` low bytes of `v` from `a`, little-endian. -/
def Memory.writeLE (m : Memory) (a n v : Nat) : Memory :=
  match n with
  | 0 => m
  | k + 1 => (m.write a (BitVec.ofNat 8 v)).writeLE (a + 1) k (v / 256)

/-- The bounds check of R72, on unbounded integers. -/
def State.inBounds (s : State) (a : Word) (n : Nat) : Bool := a.toNat + n ≤ s.config.memSize

/-- `MemoryFault(a, n, MEM_SIZE)` (R503). -/
def State.memoryFault (s : State) (a : Word) (n : Nat) : Fault :=
  .memoryFault a n s.config.memSize s.eip

/-- `MemRead(a, w / 8)` (R22, R74). -/
def State.memRead (w : Nat) (s : State) (a : Word) : Except Fault (BitVec w) :=
  if s.inBounds a (w / 8) then .ok (BitVec.ofNat w (s.mem.readLE a.toNat (w / 8)))
  else .error (s.memoryFault a (w / 8))

/-- `MemWrite(a, w / 8, v)` (R22, R74). -/
def State.memWrite {w : Nat} (s : State) (a : Word) (v : BitVec w) : Except Fault State :=
  if s.inBounds a (w / 8) then .ok { s with mem := s.mem.writeLE a.toNat (w / 8) v.toNat }
  else .error (s.memoryFault a (w / 8))

/-! ### General registers -/

/-- `x[i]` (R30). -/
def State.gpr (s : State) (i : Reg) : Word := s.x[i.toNat]'i.isLt

/-- `x[i] <- v` (R31). -/
def State.setGpr (s : State) (i : Reg) (v : Word) : State :=
  { s with x := s.x.set i.toNat v i.isLt }

/-- `r8(i)` (R33): AL, CL, DL, BL, then AH, CH, DH, BH. -/
def State.r8 (s : State) (i : Reg) : Byte :=
  if i.toNat < 4 then (s.gpr i).extractLsb' 0 8 else (s.gpr (i - 4)).extractLsb' 8 8

/-- `r8(i) <- v` (R33): the other 24 bits are kept. -/
def State.setR8 (s : State) (i : Reg) (v : Byte) : State :=
  if i.toNat < 4 then s.setGpr i ((s.gpr i).extractLsb' 8 24 ++ v)
  else
    let old := s.gpr (i - 4)
    s.setGpr (i - 4) ((old.extractLsb' 16 16 ++ v) ++ old.extractLsb' 0 8)

/-- `r16(i)` (R34). -/
def State.r16 (s : State) (i : Reg) : Half := (s.gpr i).extractLsb' 0 16

/-- `r16(i) <- v` (R34): bits 31..16 are kept. -/
def State.setR16 (s : State) (i : Reg) (v : Half) : State :=
  s.setGpr i ((s.gpr i).extractLsb' 16 16 ++ v)

/-! ### Flags -/

/-- A word with one bit replaced. -/
def setBit {w : Nat} (v : BitVec w) (n : Nat) (b : Bool) : BitVec w :=
  if b then v ||| BitVec.twoPow w n else v &&& ~~~(BitVec.twoPow w n)

/-- CF is bit 0 of `flags` (R40). -/
def State.cf (s : State) : Bool := s.flags.getLsbD 0

/-- ZF is bit 6 of `flags` (R40). -/
def State.zf (s : State) : Bool := s.flags.getLsbD 6

/-- SF is bit 7 of `flags` (R40). -/
def State.sf (s : State) : Bool := s.flags.getLsbD 7

/-- DF is bit 10 of `flags` (R40). -/
def State.df (s : State) : Bool := s.flags.getLsbD 10

/-- OF is bit 11 of `flags` (R40). -/
def State.of (s : State) : Bool := s.flags.getLsbD 11

/-- `CF <- b`. -/
def State.setCf (s : State) (b : Bool) : State := { s with flags := setBit s.flags 0 b }

/-- `ZF <- b`. -/
def State.setZf (s : State) (b : Bool) : State := { s with flags := setBit s.flags 6 b }

/-- `SF <- b`. -/
def State.setSf (s : State) (b : Bool) : State := { s with flags := setBit s.flags 7 b }

/-- `DF <- b`. -/
def State.setDf (s : State) (b : Bool) : State := { s with flags := setBit s.flags 10 b }

/-- `OF <- b`. -/
def State.setOf (s : State) (b : Bool) : State := { s with flags := setBit s.flags 11 b }

/-! ### The x87 register stack -/

/-- The physical slot of ST(i): `(fpu_top + i) mod 8` (R47). -/
def State.phys (s : State) (i : Reg) : BitVec 3 := s.fpuTop + i

/-- ST(i), whatever its tag says (R47). -/
def State.st (s : State) (i : Reg) : F64 := s.fpuStack[(s.phys i).toNat]'(s.phys i).isLt

/-- The value of a physical slot; its tag is kept. -/
def State.setSlot (s : State) (p : BitVec 3) (v : F64) : State :=
  { s with fpuStack := s.fpuStack.set p.toNat v p.isLt }

/-- `ST(i) <- v`; the tag is kept (R52). -/
def State.setSt (s : State) (i : Reg) (v : F64) : State := s.setSlot (s.phys i) v

/-- `tag(p)`: bits 2p+1 .. 2p of the tag word (R52). -/
def State.tag (s : State) (p : BitVec 3) : BitVec 2 := s.fpuTag.extractLsb' (2 * p.toNat) 2

/-- `tag(p) <- t` (R52). -/
def State.setTag (s : State) (p : BitVec 3) (t : BitVec 2) : State :=
  { s with fpuTag := (s.fpuTag &&& ~~~(3#16 <<< (2 * p.toNat))) ||| (t.setWidth 16 <<< (2 * p.toNat)) }

/-- The tag VALID (R52). -/
def tagValid : BitVec 2 := 0

/-- The tag EMPTY (R52). -/
def tagEmpty : BitVec 2 := 3

/-- A status word with its TOP field, bits 13..11, replaced (R50). -/
def withTop (status : Half) (t : BitVec 3) : Half :=
  (status.extractLsb' 14 2 ++ t) ++ status.extractLsb' 0 11

/-- `fpu_top <- t`, and TOP follows it (R48, R50). -/
def State.setTop (s : State) (t : BitVec 3) : State :=
  { s with fpuTop := t, fpuStatus := withTop s.fpuStatus t }

/-- `FPush(v)` (R48). A full stack is overwritten without notice (R49). -/
def State.fpush (s : State) (v : F64) : State :=
  let t := s.setTop (s.fpuTop - 1)
  (t.setSlot t.fpuTop v).setTag t.fpuTop tagValid

/-- `FPop()` (R48). An empty stack is not detected (R49). -/
def State.fpop (s : State) : State := (s.setTag s.fpuTop tagEmpty).setTop (s.fpuTop + 1)

/-! ### Completing an instruction -/

/-- The prefix state is none again (R55, R103), and the decoded record is gone (log 7). -/
def State.clearDecode (s : State) : State :=
  { s with seg := .none, opsizeOverride := false, rep := .none, next := 0, ops := noOperands }

/-- The end of a completed step: the prefix state is reset and the count goes up by one (R54, R560). -/
def State.retire (s : State) : State :=
  { s.clearDecode with instrCount := s.instrCount + 1 }

/-- An instruction that transfers control completes: `eip <- target` (R36). -/
def State.jump (s : State) (target : Word) : State := { s with eip := target }.retire

/-- An instruction completes: `eip <- next` (R36). -/
def State.complete (s : State) : State := s.jump s.next

/-! ### The host's handlers -/

/-- What a host handler leaves (R520, R523): every piece of state it may touch. Its memory is a list of
address and byte pairs, written in order over a memory of zeros; an address outside memory is dropped (log 5). -/
structure HostImage where
  x : Vector Word 8
  eip : Word
  flags : BitVec 32
  fpuStack : Vector F64 8
  fpuTop : BitVec 3
  fpuStatus : Half
  fpuControl : Half
  fpuTag : Half
  halted : Bool
  mem : List Host.Cell
  deriving DecidableEq, Repr, Inhabited

/-- `H_exc` (R18, R520): the host's exception handler. Nothing is known of it; the first argument counts the
answers drawn before, since a relation need not answer one question twice alike (log 5). -/
opaque hostException : Nat → Fault → State → HostImage

/-- `H_int` (R18, R523): the host's interrupt handler. Nothing is known of it (log 5). -/
opaque hostInterrupt : Nat → Byte → State → HostImage

/-- The memory a host image describes. -/
def HostImage.memory (h : HostImage) (size : Nat) : Memory :=
  h.mem.foldl (fun m c => if c.1 < size then m.write c.1 c.2 else m) []

/-- The state a handler leaves. TOP equals `fpu_top` (R50); the count, the parameters and the terminal state
are not the host's (R54, R58). -/
def State.applyHost (s : State) (h : HostImage) : State :=
  { s with
    x := h.x
    eip := h.eip
    flags := h.flags
    fpuStack := h.fpuStack
    fpuTop := h.fpuTop
    fpuStatus := withTop h.fpuStatus h.fpuTop
    fpuControl := h.fpuControl
    fpuTag := h.fpuTag
    halted := h.halted
    mem := h.memory s.config.memSize
    draws := s.draws + 1 }

/-! ### Taking a fault -/

/-- The number of a fault's kind (R500). -/
def Fault.code : Fault → Nat
  | .unknownOpcode _ _ => 1
  | .unsupportedGroupExtension _ _ _ => 2
  | .memoryFault _ _ _ _ => 3
  | .unsupportedAddressingForm _ _ _ => 4
  | .unsupportedOperandSize _ _ => 5
  | .unsupportedCondition _ _ => 6
  | .divideByZero _ _ => 7
  | .quotientOverflow _ _ => 8
  | .unhandledInterrupt _ _ => 9

/-- The address of the first byte of the faulting instruction (R500). -/
def Fault.start : Fault → Word
  | .unknownOpcode _ a => a
  | .unsupportedGroupExtension _ _ a => a
  | .memoryFault _ _ _ a => a
  | .unsupportedAddressingForm _ _ a => a
  | .unsupportedOperandSize _ a => a
  | .unsupportedCondition _ a => a
  | .divideByZero _ a => a
  | .quotientOverflow _ a => a
  | .unhandledInterrupt _ a => a

/-- `UnhandledInterrupt` is never given to the exception handler (R509, R560). -/
def Fault.goesToHandler : Fault → Bool
  | .unhandledInterrupt _ _ => false
  | _ => true

/-- `Deliver(F)` (R560), on the precise state of R511 (`eip` at the instruction's start): the prefix state is
reset and the count kept (R510); then the exception handler, if one is installed, leaves the next state (R520);
otherwise the machine enters the terminal state `Faulted(F)` (R521). Nothing is saved by the hardware. -/
def State.deliver (s : State) (f : Fault) : State :=
  let t := s.clearDecode
  if t.config.excHandler && f.goesToHandler then t.applyHost (hostException t.draws f t)
  else { t with terminal := some f }

/-- `signal Interrupt(n)` (R352, R523, R524): the handler is called with `eip` already at the next instruction,
and the instruction is complete when it returns; without a handler the fault is fatal. -/
def State.interrupt (s : State) (n : Byte) : State :=
  if s.config.intHandler then
    let t := { s with eip := s.next }
    (t.applyHost (hostInterrupt t.draws n t)).retire
  else s.deliver (.unhandledInterrupt n s.eip)

/-- The end of an instruction begun in `s`: its result, or the delivery of its fault on `s`, so that no write
of it survives (R511, R560). -/
def finish (s : State) (r : Except Fault State) : Host.Outcome State Fault Refusal :=
  match r with
  | .ok t => .next t
  | .error f => .next (s.deliver f)

end Sys2Proof.Machine
end

