-- ==== Sys2Proof/Machine/Operands.lean ====
section
/-! DEFINITION. The operand forms (spec/30_encoding.md R111 to R121, spec/20_memory.md R80 to R82,
spec/00_scope.md R24) and the stack primitives (spec/43_stack.md R320). An instruction's operands are the
fields `ops` of the state (log 6). -/

namespace Sys2Proof.Machine

/-- The displacement term of an address (R112, R117). -/
def dispValue : Disp → Word
  | .none => 0
  | .disp8 d => d.signExtend 32
  | .disp32 d => d

/-- The scaled index term of an address; index 4 is no index (R113, R115). -/
def indexPart (s : State) (scale : BitVec 2) (index : Reg) : Word :=
  if index = 4 then 0 else s.gpr index <<< scale.toNat

/-- `EA(op)` (R121). -/
def effectiveAddr (s : State) : MemOp → Word
  | .abs d => d
  | .base b d => s.gpr b + dispValue d
  | .sib scale index b d => s.gpr b + indexPart s scale index + dispValue d
  | .sibAbs scale index d => indexPart s scale index + d

/-- An address after the segment override in force (R80). -/
def resolveSeg (s : State) (a : Word) : Word :=
  match s.seg with
  | .none => a
  | .fs => Config.resolveFs a
  | .gs => Config.resolveGs a

/-- `LinearAddr(op)` (R80). -/
def linearAddr (s : State) (m : MemOp) : Word := resolveSeg s (effectiveAddr s m)

/-- How a register operand of width `w` is read and written (R33, R34, R111). -/
structure Access (w : Nat) where
  reg : State → Reg → BitVec w
  setReg : State → Reg → BitVec w → State

/-- 8-bit register operands (R33). -/
def acc8 : Access 8 := ⟨State.r8, State.setR8⟩

/-- 16-bit register operands (R34). -/
def acc16 : Access 16 := ⟨State.r16, State.setR16⟩

/-- 32-bit register operands (R30). -/
def acc32 : Access 32 := ⟨State.gpr, State.setGpr⟩

/-- `Read(rm, w)` (R24). -/
def readRm {w : Nat} (acc : Access w) (s : State) (rm : RM) : Except Fault (BitVec w) :=
  match rm with
  | .reg r => .ok (acc.reg s r)
  | .mem m => s.memRead w (linearAddr s m)

/-- `Write(rm, w, v)` (R24). -/
def writeRm {w : Nat} (acc : Access w) (s : State) (rm : RM) (v : BitVec w) : Except Fault State :=
  match rm with
  | .reg r => .ok (acc.setReg s r v)
  | .mem m => s.memWrite (linearAddr s m) v

/-- The memory operand of a row that has no register form (R123); on a register operand, which the decoder
never gives such a row, it is `[0]` (log 19). -/
def State.memOperand (s : State) : MemOp :=
  match s.ops.rm with
  | .mem m => m
  | .reg _ => .abs 0

/-- `LinearAddr(rm)` of such a row. -/
def State.memAddr (s : State) : Word := linearAddr s s.memOperand

/-- The index i of ST(i): the low three bits of an x87 register form (R142); on a memory operand, which the
decoder never gives such a row, it is 0 (log 19). -/
def State.stIndex (s : State) : Reg :=
  match s.ops.rm with
  | .reg r => r
  | .mem _ => 0

/-- The immediate at width `w` (R130); the decoder has extended it to 32 bits. -/
def State.imm (w : Nat) (s : State) : BitVec w := s.ops.imm.setWidth w

/-- The target of a relative transfer (R342). -/
def State.relTarget (s : State) : Word := s.next + s.ops.rel

/-- `Push32(v)` (R320). -/
def push32 (s : State) (v : Word) : Except Fault State := do
  let t ← s.memWrite (s.gpr 4 - 4) v
  return t.setGpr 4 (s.gpr 4 - 4)

/-- `Pop32()` (R320): the value, and the state with ESP advanced. -/
def pop32 (s : State) : Except Fault (Word × State) := do
  let v ← s.memRead 32 (s.gpr 4)
  return (v, s.setGpr 4 (s.gpr 4 + 4))

end Sys2Proof.Machine
end

