-- ==== Sys2Proof/Machine/Flags.lean ====
section
/-! DEFINITION. The flag computations (spec/41_arithmetic.md R240 to R243, spec/42_logic_shift_bit.md R280, R290 to
R299) and the condition table (spec/44_control_flow.md R340). -/

namespace Sys2Proof.Machine

/-- A result with its CF and OF; ZF and SF follow from the result at its width (R242). -/
structure AluResult (w : Nat) where
  val : BitVec w
  cf : Bool
  of : Bool
  deriving DecidableEq, Repr

/-- OF of an addition (R240). -/
def addOverflow {w : Nat} (a b r : BitVec w) : Bool := a.msb == b.msb && r.msb != a.msb

/-- OF of a subtraction (R241). -/
def subOverflow {w : Nat} (a b r : BitVec w) : Bool := a.msb != b.msb && r.msb != a.msb

/-- Addition (R240). -/
def addResult {w : Nat} (a b : BitVec w) : AluResult w :=
  let r := a + b
  ⟨r, decide (r.toNat < a.toNat) || decide (r.toNat < b.toNat), addOverflow a b r⟩

/-- Subtraction (R241). -/
def subResult {w : Nat} (a b : BitVec w) : AluResult w :=
  let r := a - b
  ⟨r, decide (a.toNat < b.toNat), subOverflow a b r⟩

/-- Addition with the carry `c` (R243). -/
def adcResult {w : Nat} (rule : CarryInRule) (c : Bool) (a b : BitVec w) : AluResult w :=
  let r := a + b + (BitVec.ofBool c).setWidth w
  let cf :=
    match rule with
    | .architectural => decide (2 ^ w ≤ a.toNat + b.toNat + c.toNat)
    | .literalTwoOperand => decide (r.toNat < a.toNat) || decide (r.toNat < b.toNat)
  ⟨r, cf, addOverflow a b r⟩

/-- Subtraction with the borrow `c` (R243). -/
def sbbResult {w : Nat} (rule : CarryInRule) (c : Bool) (a b : BitVec w) : AluResult w :=
  let r := a - b - (BitVec.ofBool c).setWidth w
  let cf :=
    match rule with
    | .architectural => decide (a.toNat < b.toNat + c.toNat)
    | .literalTwoOperand => decide (a.toNat < b.toNat)
  ⟨r, cf, subOverflow a b r⟩

/-- A logic result: CF and OF are cleared (R280). -/
def logicResult {w : Nat} (r : BitVec w) : AluResult w := ⟨r, false, false⟩

/-- The eight operations of R244. -/
inductive AluOp where
  | add
  | or
  | adc
  | sbb
  | and
  | sub
  | xor
  | cmp
  deriving DecidableEq, Repr

/-- The result of an operation of R244 on the destination value `a` and the source value `b`
(R245 to R249, R281 to R283). -/
def aluResult {w : Nat} (op : AluOp) (s : State) (a b : BitVec w) : AluResult w :=
  match op with
  | .add => addResult a b
  | .or => logicResult (a ||| b)
  | .adc => adcResult s.config.carryIn s.cf a b
  | .sbb => sbbResult s.config.carryIn s.cf a b
  | .and => logicResult (a &&& b)
  | .sub => subResult a b
  | .xor => logicResult (a ^^^ b)
  | .cmp => subResult a b

/-- `ZF <- (r = 0); SF <- msb(r)` (R242). -/
def State.setZs {w : Nat} (s : State) (r : BitVec w) : State := (s.setZf (r == 0)).setSf r.msb

/-- The four flags of an arithmetic or logic result. -/
def State.setAlu {w : Nat} (s : State) (r : AluResult w) : State :=
  ((s.setCf r.cf).setOf r.of).setZs r.val

/-- OF, ZF and SF of a result; CF is kept (R250, R251). -/
def State.setAluKeepCf {w : Nat} (s : State) (r : AluResult w) : State :=
  (s.setOf r.of).setZs r.val

/-! ### Shifts and rotates -/

/-- The seven operations of R290. -/
inductive ShiftOp where
  | rol
  | ror
  | rcl
  | rcr
  | shl
  | shr
  | sar
  deriving DecidableEq, Repr

/-- `rotl_k(v, j)` (R291). -/
def rotl {k : Nat} (v : BitVec k) (j : Nat) : BitVec k := (v <<< j) ||| (v >>> (k - j))

/-- `rotr_k(v, j)` (R291). -/
def rotr {k : Nat} (v : BitVec k) (j : Nat) : BitVec k := rotl v ((k - j) % k)

/-- CF on top of `a`: the `w+1`-bit value of RCL and RCR (R295, R296). -/
def withCarry {w : Nat} (c : Bool) (a : BitVec w) : BitVec (1 + w) := BitVec.ofBool c ++ a

/-- Bit `w - 2` of a result (R294, R296). -/
def secondBit {w : Nat} (r : BitVec w) : Bool := r.getLsbD (w - 2)

/-- The result of a shift or rotate by `cnt`, `1 <= cnt <= 31`, of `a` with the carry `c` (R293 to R299). -/
def shiftResult {w : Nat} (op : ShiftOp) (c : Bool) (a : BitVec w) (cnt : Nat) : AluResult w :=
  match op with
  | .rol =>
    let r := rotl a (cnt % w)
    ⟨r, r.getLsbD 0, r.msb ^^ r.getLsbD 0⟩
  | .ror =>
    let r := rotr a (cnt % w)
    ⟨r, r.msb, r.msb ^^ secondBit r⟩
  | .rcl =>
    let t := rotl (withCarry c a) (cnt % (w + 1))
    let r := t.extractLsb' 0 w
    ⟨r, t.getLsbD w, r.msb ^^ t.getLsbD w⟩
  | .rcr =>
    let t := rotr (withCarry c a) (cnt % (w + 1))
    let r := t.extractLsb' 0 w
    ⟨r, t.getLsbD w, r.msb ^^ secondBit r⟩
  | .shl =>
    let r := a <<< cnt
    let cf := decide (cnt ≤ w) && a.getLsbD (w - cnt)
    ⟨r, cf, r.msb ^^ cf⟩
  | .shr =>
    let r := a >>> cnt
    ⟨r, decide (cnt ≤ w) && a.getLsbD (cnt - 1), a.msb⟩
  | .sar =>
    let r := a.sshiftRight cnt
    ⟨r, if cnt ≤ w then a.getLsbD (cnt - 1) else a.msb, false⟩

/-- Whether the operation writes ZF and SF too: the shifts do, the rotates do not (R293 to R299). -/
def ShiftOp.writesZs : ShiftOp → Bool
  | .shl => true
  | .shr => true
  | .sar => true
  | .rol => false
  | .ror => false
  | .rcl => false
  | .rcr => false

/-- The flags of a shift or rotate with a non-zero masked count (R292 to R299). -/
def State.setShift {w : Nat} (s : State) (op : ShiftOp) (r : AluResult w) : State :=
  let t := (s.setCf r.cf).setOf r.of
  if op.writesZs then t.setZs r.val else t

/-- CF and OF of a multiply (R253 to R256); ZF and SF are kept. -/
def State.setMul (s : State) (overflow : Bool) : State := (s.setCf overflow).setOf overflow

/-! ### Conditions -/

/-- The fourteen conditions of R340 that are evaluated. -/
inductive Cond where
  | o
  | no
  | b
  | ae
  | e
  | ne
  | be
  | a
  | s
  | ns
  | l
  | ge
  | le
  | g
  deriving DecidableEq, Repr

/-- `Cond(cc)` (R340). -/
def Cond.holds (c : Cond) (s : State) : Bool :=
  match c with
  | .o => s.of
  | .no => !s.of
  | .b => s.cf
  | .ae => !s.cf
  | .e => s.zf
  | .ne => !s.zf
  | .be => s.cf || s.zf
  | .a => !s.cf && !s.zf
  | .s => s.sf
  | .ns => !s.sf
  | .l => s.sf != s.of
  | .ge => s.sf == s.of
  | .le => s.zf || s.sf != s.of
  | .g => !s.zf && s.sf == s.of

end Sys2Proof.Machine
end

