-- ==== Sys2Proof/Machine/Float.lean ====
section
/-! DEFINITION. Binary64 arithmetic with round-to-nearest-ties-to-even (spec/00_scope.md R15, R25), the
conversions (spec/46_x87_load_store.md R402 to R404, R410) and the comparison of spec/47_x87_arith_compare.md
R475. Every value is computed exactly on integers and rounded once. An operation that IEEE 754 gives a NaN
answers `none`, which `settle` turns into the free value `NAN_RESULT`. PRESUMED: what IEEE 754 says and the spec
does not write out (log 16). -/

namespace Sys2Proof.Machine

/-! ### Values -/

/-- What a pattern stands for: a finite value is `(-1)^neg * m * 2^q`. -/
inductive FVal where
  | nan
  | inf (neg : Bool)
  | fin (neg : Bool) (m : Nat) (q : Int)
  deriving DecidableEq, Repr

/-- The value of the fields of a binary interchange format with `fw` fraction bits, largest exponent field
`emax` and smallest exponent `qmin` of the unit in the last place. -/
def fieldsValue (fw emax : Nat) (qmin : Int) (neg : Bool) (e f : Nat) : FVal :=
  if e = emax then (if f = 0 then .inf neg else .nan)
  else if e = 0 then .fin neg f qmin
  else .fin neg (2 ^ fw + f) (qmin + (e - 1 : Nat))

/-- The value of a binary64 pattern (R25). -/
def value64 (v : F64) : FVal :=
  fieldsValue 52 0x7FF (-1074) v.msb (v.extractLsb' 52 11).toNat (v.extractLsb' 0 52).toNat

/-- The value of a binary32 pattern (R402). -/
def value32 (v : BitVec 32) : FVal :=
  fieldsValue 23 0xFF (-149) v.msb (v.extractLsb' 23 8).toNat (v.extractLsb' 0 23).toNat

/-- The value of an x87 extended pattern (R404): an explicit integer bit, bias 16383. -/
def value80 (v : BitVec 80) : FVal :=
  let e := (v.extractLsb' 64 15).toNat
  let sig := (v.extractLsb' 0 64).toNat
  if e = 0x7FFF then (if sig % 2 ^ 63 = 0 then .inf v.msb else .nan)
  else .fin v.msb sig ((if e = 0 then 1 else e : Nat) - 16383 - 63)

/-- The pattern is a NaN: exponent all ones and fraction non-zero (R15). -/
def isNan (v : F64) : Bool := v.extractLsb' 52 11 == 0x7FF#11 && v.extractLsb' 0 52 != 0#52

/-! ### Rounding -/

/-- `m` without its low `sh` bits, rounded to nearest, ties to even; `sticky` says that the exact value lies
strictly above `m` (and below `m + 1`). -/
def roundShift (m sh : Nat) (sticky : Bool) : Nat :=
  match sh with
  | 0 => m
  | k + 1 =>
    let q := m >>> (k + 1)
    let r := m % 2 ^ (k + 1)
    let up := decide (2 ^ k < r) || (decide (r = 2 ^ k) && (sticky || q % 2 == 1))
    if up then q + 1 else q

/-- The magnitude bits of `m * 2^q` (plus less than one unit of `2^q` if `sticky`) rounded to a format of
`prec` significand bits whose smallest unit is `2^qmin` and whose infinity has the bits `inf` (R25). With
`sticky`, `m` has more than `prec` bits. The encoding of consecutive magnitudes is consecutive, so a carry out of the
significand runs into the exponent field, and what exceeds the largest finite value becomes the infinity. -/
def packMagnitude (prec : Nat) (qmin : Int) (inf m : Nat) (q : Int) (sticky : Bool) : Nat :=
  if m = 0 then 0
  else
    let t := max (q + (Nat.log2 m + 1 : Nat) - prec) qmin
    let mant := if t ≤ q then m <<< (q - t).toNat else roundShift m (t - q).toNat sticky
    min inf ((t - qmin).toNat * 2 ^ (prec - 1) + mant)

/-- The binary64 pattern of a sign and magnitude bits. -/
def join64 (neg : Bool) (mag : Nat) : F64 := BitVec.ofBool neg ++ BitVec.ofNat 63 mag

/-- The binary32 pattern of a sign and magnitude bits. -/
def join32 (neg : Bool) (mag : Nat) : BitVec 32 := BitVec.ofBool neg ++ BitVec.ofNat 31 mag

/-- The magnitude bits of the binary64 infinity. -/
def inf64 : Nat := 0x7FF0000000000000

/-- The magnitude bits of the binary32 infinity. -/
def inf32 : Nat := 0x7F800000

/-- `(-1)^neg * m * 2^q`, plus a sticky rest, rounded to binary64 (R25). -/
def round64 (neg : Bool) (m : Nat) (q : Int) (sticky : Bool) : F64 :=
  join64 neg (packMagnitude 53 (-1074) inf64 m q sticky)

/-- A value rounded to binary64; `none` for a NaN. -/
def ofValue (v : FVal) : Option F64 :=
  match v with
  | .nan => none
  | .inf neg => some (join64 neg inf64)
  | .fin neg m q => some (round64 neg m q false)

/-! ### The arithmetic of R25 -/

/-- The sum of two finite values: exact, then rounded; an exact zero is +0 unless both operands are negative
(so -0 + -0 = -0). -/
def addFinite (n1 : Bool) (m1 : Nat) (q1 : Int) (n2 : Bool) (m2 : Nat) (q2 : Int) : F64 :=
  let q := min q1 q2
  let a : Int := m1 <<< (q1 - q).toNat
  let b : Int := m2 <<< (q2 - q).toNat
  let sum := (if n1 then -a else a) + (if n2 then -b else b)
  if sum = 0 then join64 (n1 && n2) 0 else round64 (decide (sum < 0)) sum.natAbs q false

/-- `fadd` (R25). -/
def fadd (a b : F64) : Option F64 :=
  match value64 a, value64 b with
  | .nan, _ => none
  | _, .nan => none
  | .inf n1, .inf n2 => if n1 = n2 then some (join64 n1 inf64) else none
  | .inf n1, .fin _ _ _ => some (join64 n1 inf64)
  | .fin _ _ _, .inf n2 => some (join64 n2 inf64)
  | .fin n1 m1 q1, .fin n2 m2 q2 => some (addFinite n1 m1 q1 n2 m2 q2)

/-- The pattern with its sign inverted. -/
def negate (v : F64) : F64 := v ^^^ 0x8000000000000000#64

/-- `fsub` (R25): the sum with the opposite of `b`. -/
def fsub (a b : F64) : Option F64 := fadd a (negate b)

/-- `fmul` (R25). -/
def fmul (a b : F64) : Option F64 :=
  match value64 a, value64 b with
  | .nan, _ => none
  | _, .nan => none
  | .inf n1, .inf n2 => some (join64 (n1 ^^ n2) inf64)
  | .inf n1, .fin n2 m _ => if m = 0 then none else some (join64 (n1 ^^ n2) inf64)
  | .fin n1 m _, .inf n2 => if m = 0 then none else some (join64 (n1 ^^ n2) inf64)
  | .fin n1 m1 q1, .fin n2 m2 q2 => some (round64 (n1 ^^ n2) (m1 * m2) (q1 + q2) false)

/-- The quotient of two finite values with a non-zero divisor: 109 extra bits leave at least 57 bits of
quotient, and a non-zero remainder is the sticky rest. -/
def divFinite (neg : Bool) (m1 : Nat) (q1 : Int) (m2 : Nat) (q2 : Int) : F64 :=
  let n := m1 <<< 109
  round64 neg (n / m2) (q1 - q2 - 109) (n % m2 != 0)

/-- `fdiv` (R25): a non-zero finite value over zero is an infinity, 0/0 and inf/inf are NaNs. -/
def fdiv (a b : F64) : Option F64 :=
  match value64 a, value64 b with
  | .nan, _ => none
  | _, .nan => none
  | .inf _, .inf _ => none
  | .inf n1, .fin n2 _ _ => some (join64 (n1 ^^ n2) inf64)
  | .fin n1 _ _, .inf n2 => some (join64 (n1 ^^ n2) 0)
  | .fin n1 m1 q1, .fin n2 m2 q2 =>
    if m2 = 0 then (if m1 = 0 then none else some (join64 (n1 ^^ n2) inf64))
    else some (divFinite (n1 ^^ n2) m1 q1 m2 q2)

/-- The integer square root of `m`, found from bit `k - 1` down; `acc` is what the higher bits gave. -/
def isqrtFrom (m : Nat) (k acc : Nat) : Nat :=
  match k with
  | 0 => acc
  | j + 1 =>
    let c := acc + 2 ^ j
    isqrtFrom m j (if c * c ≤ m then c else acc)

/-- The root of a positive finite value: made even in the exponent, 112 extra bits leave more than 53 bits of
root, and an inexact root is the sticky rest. -/
def sqrtFinite (m : Nat) (q : Int) : F64 :=
  let odd := q % 2 = 1
  let m2 := (if odd then 2 * m else m) <<< 112
  let q2 := (if odd then q - 1 else q) - 112
  let r := isqrtFrom m2 84 0
  round64 false r (q2 / 2) (r * r != m2)

/-- `fsqrt` (R25, R471). -/
def fsqrt (a : F64) : Option F64 :=
  match value64 a with
  | .nan => none
  | .inf neg => if neg then none else some (join64 false inf64)
  | .fin neg m q =>
    if m = 0 then some (join64 neg 0)
    else if neg then none
    else some (sqrtFinite m q)

/-! ### Comparison -/

/-- The answers of `fcompare` (R25). -/
inductive FOrder where
  | gt
  | lt
  | eq
  | un
  deriving DecidableEq, Repr

/-- A pattern that is no NaN as a signed integer that rises with its value: magnitudes of binary64 are ordered
as their bits, and the two zeros are equal. -/
def orderKey (v : F64) : Int :=
  let mag : Int := (v.extractLsb' 0 63).toNat
  if v.msb then -mag else mag

/-- `fcompare(a, b)` (R25). -/
def fcompare (a b : F64) : FOrder :=
  if isNan a || isNan b then .un
  else if orderKey a < orderKey b then .lt
  else if orderKey b < orderKey a then .gt
  else .eq

/-! ### Conversions -/

/-- `cvt_f32_to_f64` (R402). -/
def cvtF32ToF64 (v : BitVec 32) : Option F64 := ofValue (value32 v)

/-- `cvt_int_to_f64` (R402). -/
def cvtIntToF64 (i : Int) : F64 := round64 (decide (i < 0)) i.natAbs 0 false

/-- `cvt_f64_to_f32` (R403). A NaN keeps its sign and its top fraction bits, with the quiet bit set
(DEDUCED: R403 over R15, log 15). -/
def cvtF64ToF32 (v : F64) : BitVec 32 :=
  match value64 v with
  | .nan => BitVec.ofBool v.msb ++ (0xFF#8 ++ (0x400000#23 ||| v.extractLsb' 29 23))
  | .inf neg => join32 neg inf32
  | .fin neg m q => join32 neg (packMagnitude 24 (-149) inf32 m q false)

/-- `F80_LOAD` (R404): `Rounded`, or bytes 0..7 as they stand. -/
def f80Load (mode : F80Mode) (v : BitVec 80) : Option F64 :=
  match mode with
  | .roundedExact => ofValue (value80 v)
  | .asDouble => some (v.extractLsb' 0 64)

/-- An extended pattern from its sign, exponent and significand (R404). -/
def join80 (neg : Bool) (e sig : Nat) : BitVec 80 :=
  (BitVec.ofBool neg ++ BitVec.ofNat 15 e) ++ BitVec.ofNat 64 sig

/-- `F80_STORE` (R404): `Exact`, or the pattern in bytes 0..7. DEDUCED: the sign bit of a stored NaN is the
value's (log 12). -/
def f80Store (mode : F80Mode) (v : F64) : BitVec 80 :=
  match mode with
  | .asDouble => v.setWidth 80
  | .roundedExact =>
    match value64 v with
    | .nan => join80 v.msb 0x7FFF (0xC000000000000000 ||| (v.extractLsb' 0 52).toNat <<< 11)
    | .inf neg => join80 neg 0x7FFF 0x8000000000000000
    | .fin neg m q =>
      if m = 0 then join80 neg 0 0
      else
        let len := Nat.log2 m + 1
        join80 neg (q + len + 16382).toNat (m <<< (64 - len))

/-- `trunc` of a finite value (R20, R410). -/
def truncFinite (neg : Bool) (m : Nat) (q : Int) : Int :=
  let t : Int := if 0 ≤ q then (m <<< q.toNat : Nat) else (m >>> (-q).toNat : Nat)
  if neg then -t else t

/-- `IntConv(v, w)` (R410), with `overflow` for `FIST_OVERFLOW(w)`. -/
def intConv {w : Nat} (overflow : BitVec w) (v : F64) : BitVec w :=
  match value64 v with
  | .nan => overflow
  | .inf _ => overflow
  | .fin neg m q =>
    let t := truncFinite neg m q
    if t < -(2 ^ (w - 1) : Int) ∨ (2 ^ (w - 1) : Int) ≤ t then overflow else BitVec.ofInt w t

/-! ### The free NaN -/

/-- The `n`-th draw of `NAN_RESULT` (R15): the host's pattern where that is a NaN, and a NaN in any case. -/
def nanResult (n : Nat) : F64 :=
  if isNan (Config.nanDraw n) then Config.nanDraw n else 0x7FF8000000000000#64

/-- The value of a result in `s`: `none` draws a fresh `NAN_RESULT` (R15; log 3). -/
def settle (s : State) (r : Option F64) : State × F64 :=
  match r with
  | some v => (s, v)
  | none => ({ s with draws := s.draws + 1 }, nanResult s.draws)

end Sys2Proof.Machine
end

