-- ==== Sys2Proof/Machine/DataMove.lean ====
section
/-! DEFINITION. Data movement (spec/40_data_movement.md R200 to R209). -/

namespace Sys2Proof.Machine

/-- A row that honours 0x66: the 16-bit form under the prefix, else the 32-bit form (R105, R200). -/
def byOpsize (s : State) (half word : Except Fault State) : Except Fault State :=
  if s.opsizeOverride then half else word

/-- `Write(rm, w, v)` and complete (R201, R202). -/
def storeRm {w : Nat} (acc : Access w) (s : State) (v : BitVec w) : Except Fault State := do
  let t ← writeRm acc s s.ops.rm v
  return t.complete

/-- `r(reg) <- Read(rm, w)` and complete (R201). -/
def loadRm {w : Nat} (acc : Access w) (s : State) : Except Fault State := do
  let v ← readRm acc s s.ops.rm
  return (acc.setReg s s.ops.reg v).complete

/-- `r(reg) <- imm` and complete (R202). -/
def loadImm {w : Nat} (acc : Access w) (s : State) : State :=
  (acc.setReg s s.ops.reg (s.imm w)).complete

/-- `r(0) <- MemRead(LinearAddr(moffs), w / 8)` and complete (R203). -/
def loadMoffs {w : Nat} (acc : Access w) (s : State) : Except Fault State := do
  let v ← s.memRead w (resolveSeg s s.ops.moffs)
  return (acc.setReg s 0 v).complete

/-- `MemWrite(LinearAddr(moffs), w / 8, r(0))` and complete (R203). -/
def storeMoffs {w : Nat} (acc : Access w) (s : State) : Except Fault State := do
  let t ← s.memWrite (resolveSeg s s.ops.moffs) (acc.reg s 0)
  return t.complete

/-- `x[reg] <- ext(Read(rm, w))` and complete (R204, R205). -/
def loadExtended {w : Nat} (acc : Access w) (ext : BitVec w → Word) (s : State) : Except Fault State := do
  let v ← readRm acc s s.ops.rm
  return (s.setGpr s.ops.reg (ext v)).complete

/-- `x[reg] <- MemRead(LinearAddr(rm), 4)` and complete: the far-pointer loads (R207). -/
def loadFar (s : State) : Except Fault State := do
  let v ← s.memRead 32 s.memAddr
  return (s.setGpr s.ops.reg v).complete

/-! ### The instructions -/

/-- MOV r/m8, r8 (88 /r; R201). -/
def execMovRm8R8 (s : State) : Host.Outcome State Fault Refusal :=
  finish s (storeRm acc8 s (s.r8 s.ops.reg))

/-- MOV r/m32, r32 (89 /r; R201). -/
def execMovRm32R32 (s : State) : Host.Outcome State Fault Refusal :=
  finish s (byOpsize s (storeRm acc16 s (s.r16 s.ops.reg)) (storeRm acc32 s (s.gpr s.ops.reg)))

/-- MOV r8, r/m8 (8A /r; R201). -/
def execMovR8Rm8 (s : State) : Host.Outcome State Fault Refusal :=
  finish s (loadRm acc8 s)

/-- MOV r32, r/m32 (8B /r; R201). -/
def execMovR32Rm32 (s : State) : Host.Outcome State Fault Refusal :=
  finish s (byOpsize s (loadRm acc16 s) (loadRm acc32 s))

/-- MOV r8, ib (B0+r ib; R202). -/
def execMovR8Ib (s : State) : Host.Outcome State Fault Refusal :=
  .next (loadImm acc8 s)

/-- MOV r32, id (B8+r id; R202). -/
def execMovR32Id (s : State) : Host.Outcome State Fault Refusal :=
  finish s (byOpsize s (.ok (loadImm acc16 s)) (.ok (loadImm acc32 s)))

/-- MOV r/m8, ib (C6 /0 ib; R202). -/
def execMovRm8Ib (s : State) : Host.Outcome State Fault Refusal :=
  finish s (storeRm acc8 s (s.imm 8))

/-- MOV r/m32, id (C7 /0 id; R202). -/
def execMovRm32Id (s : State) : Host.Outcome State Fault Refusal :=
  finish s (byOpsize s (storeRm acc16 s (s.imm 16)) (storeRm acc32 s (s.imm 32)))

/-- MOV AL, moffs8 (A0 moffs32; R203). -/
def execMovAlMoffs8 (s : State) : Host.Outcome State Fault Refusal :=
  finish s (loadMoffs acc8 s)

/-- MOV EAX, moffs32 (A1 moffs32; R203). -/
def execMovEaxMoffs32 (s : State) : Host.Outcome State Fault Refusal :=
  finish s (byOpsize s (loadMoffs acc16 s) (loadMoffs acc32 s))

/-- MOV moffs8, AL (A2 moffs32; R203). -/
def execMovMoffs8Al (s : State) : Host.Outcome State Fault Refusal :=
  finish s (storeMoffs acc8 s)

/-- MOV moffs32, EAX (A3 moffs32; R203). -/
def execMovMoffs32Eax (s : State) : Host.Outcome State Fault Refusal :=
  finish s (byOpsize s (storeMoffs acc16 s) (storeMoffs acc32 s))

/-- MOVZX r32, r/m8 (0F B6 /r; R204). -/
def execMovzxR32Rm8 (s : State) : Host.Outcome State Fault Refusal :=
  finish s (loadExtended acc8 (BitVec.setWidth 32) s)

/-- MOVZX r32, r/m16 (0F B7 /r; R204). -/
def execMovzxR32Rm16 (s : State) : Host.Outcome State Fault Refusal :=
  finish s (loadExtended acc16 (BitVec.setWidth 32) s)

/-- MOVSX r32, r/m8 (0F BE /r; R205). -/
def execMovsxR32Rm8 (s : State) : Host.Outcome State Fault Refusal :=
  finish s (loadExtended acc8 (BitVec.signExtend 32) s)

/-- MOVSX r32, r/m16 (0F BF /r; R205). -/
def execMovsxR32Rm16 (s : State) : Host.Outcome State Fault Refusal :=
  finish s (loadExtended acc16 (BitVec.signExtend 32) s)

/-- LEA r32, m (8D /r; R206). -/
def execLeaR32M (s : State) : Host.Outcome State Fault Refusal :=
  .next (s.setGpr s.ops.reg (effectiveAddr s s.memOperand)).complete

/-- LES r32, m (C4 /r; R207). -/
def execLesR32M (s : State) : Host.Outcome State Fault Refusal :=
  finish s (loadFar s)

/-- LDS r32, m (C5 /r; R207). -/
def execLdsR32M (s : State) : Host.Outcome State Fault Refusal :=
  finish s (loadFar s)

/-- LSS r32, m (0F B2 /r; R207). -/
def execLssR32M (s : State) : Host.Outcome State Fault Refusal :=
  finish s (loadFar s)

/-- LFS r32, m (0F B4 /r; R207). -/
def execLfsR32M (s : State) : Host.Outcome State Fault Refusal :=
  finish s (loadFar s)

/-- LGS r32, m (0F B5 /r; R207). -/
def execLgsR32M (s : State) : Host.Outcome State Fault Refusal :=
  finish s (loadFar s)

/-- CDQ (99; R208). -/
def execCdq (s : State) : Host.Outcome State Fault Refusal :=
  .next (s.setGpr 2 (if (s.gpr 0).msb then 0xFFFFFFFF else 0)).complete

/-- CWDE (98; R209). -/
def execCwde (s : State) : Host.Outcome State Fault Refusal :=
  .next (s.setGpr 0 ((s.r16 0).signExtend 32)).complete

end Sys2Proof.Machine
end

