-- ==== Sys2Proof/Machine/Arith.lean ====
section
/-! DEFINITION. Integer arithmetic (spec/41_arithmetic.md R244 to R259) and the operand forms of the ALU block. -/

namespace Sys2Proof.Machine

/-- An operation of R244 with the destination r/m and the source value `src`: the destination is read, and
written at the same address unless the operation is CMP. -/
def aluRm {w : Nat} (acc : Access w) (op : AluOp) (src : BitVec w) (s : State) : Except Fault State := do
  let a ← readRm acc s s.ops.rm
  let r := aluResult op s a src
  let t ← if op = .cmp then .ok s else writeRm acc s s.ops.rm r.val
  return (t.setAlu r).complete

/-- An operation of R244 with the destination register `dst` and the source value `src`. -/
def aluReg {w : Nat} (acc : Access w) (op : AluOp) (dst : Reg) (src : BitVec w) (s : State) : State :=
  let r := aluResult op s (acc.reg s dst) src
  let t := if op = .cmp then s else acc.setReg s dst r.val
  (t.setAlu r).complete

/-- An operation of R244 with the destination `r(reg)` and the source `Read(rm, w)`. -/
def aluRegRm {w : Nat} (acc : Access w) (op : AluOp) (s : State) : Except Fault State := do
  let b ← readRm acc s s.ops.rm
  return aluReg acc op s.ops.reg b s

/-- `r <- f(Read(rm, w))`, written back, with the flags `setFlags r` (R250 to R252, R285). -/
def unaryRm {w : Nat} (acc : Access w) (f : BitVec w → AluResult w)
    (setFlags : State → AluResult w → State) (s : State) : Except Fault State := do
  let a ← readRm acc s s.ops.rm
  let r := f a
  let t ← writeRm acc s s.ops.rm r.val
  return (setFlags t r).complete

/-- The same on the register of a +r opcode (R250, R251). -/
def unaryReg (f : Word → AluResult 32) (setFlags : State → AluResult 32 → State) (s : State) : State :=
  let r := f (s.gpr s.ops.reg)
  (setFlags (s.setGpr s.ops.reg r.val) r).complete

/-- MUL, 8 bits: AX (R253). -/
def mul8 (s : State) : Except Fault State := do
  let b ← readRm acc8 s s.ops.rm
  let p := (s.r8 0).toNat * b.toNat
  return ((s.setR16 0 (BitVec.ofNat 16 p)).setMul (decide (256 ≤ p))).complete

/-- MUL, 32 bits: EDX:EAX (R253). -/
def mul32 (s : State) : Except Fault State := do
  let b ← readRm acc32 s s.ops.rm
  let p := (s.gpr 0).toNat * b.toNat
  let t := (s.setGpr 0 (BitVec.ofNat 32 p)).setGpr 2 (BitVec.ofNat 32 (p / 2 ^ 32))
  return (t.setMul (decide (2 ^ 32 ≤ p))).complete

/-- The exact product does not fit `w` signed bits (R254 to R256). -/
def signedOverflow (w : Nat) (p : Int) : Bool :=
  decide (p < -(2 ^ (w - 1) : Int)) || decide ((2 ^ (w - 1) : Int) ≤ p)

/-- IMUL with one operand, 8 bits: AX (R254). -/
def imul8 (s : State) : Except Fault State := do
  let b ← readRm acc8 s s.ops.rm
  let p := (s.r8 0).toInt * b.toInt
  return ((s.setR16 0 (BitVec.ofInt 16 p)).setMul (signedOverflow 8 p)).complete

/-- IMUL with one operand, 32 bits: EDX:EAX (R254). -/
def imul32 (s : State) : Except Fault State := do
  let b ← readRm acc32 s s.ops.rm
  let p := (s.gpr 0).toInt * b.toInt
  let full := BitVec.ofInt 64 p
  let t := (s.setGpr 0 (full.extractLsb' 0 32)).setGpr 2 (full.extractLsb' 32 32)
  return (t.setMul (signedOverflow 32 p)).complete

/-- `x[reg] <- w32(a * Read(rm, 32))` (R255, R256). -/
def imulReg (a : Word) (s : State) : Except Fault State := do
  let b ← readRm acc32 s s.ops.rm
  let p := b.toInt * a.toInt
  return ((s.setGpr s.ops.reg (BitVec.ofInt 32 p)).setMul (signedOverflow 32 p)).complete

/-- The quotient and remainder of DIV (R257), or its fault. -/
def divide (w n d : Nat) (key : OpKey) (start : Word) : Except Fault (BitVec w × BitVec w) :=
  if d = 0 then .error (.divideByZero key start)
  else if 2 ^ w ≤ n / d then .error (.quotientOverflow key start)
  else .ok (BitVec.ofNat w (n / d), BitVec.ofNat w (n % d))

/-- The quotient, rounded toward zero, and the remainder of IDIV (R258, R259), or its fault. -/
def divideSigned (w : Nat) (n d : Int) (key : OpKey) (start : Word) : Except Fault (BitVec w × BitVec w) :=
  if d = 0 then .error (.divideByZero key start)
  else
    let q := n.tdiv d
    if signedOverflow w q then .error (.quotientOverflow key start)
    else .ok (BitVec.ofInt w q, BitVec.ofInt w (n - q * d))

/-- EDX:EAX, the 64-bit dividend (R257, R258). -/
def State.edxEax (s : State) : BitVec 64 := s.gpr 2 ++ s.gpr 0

/-- `r8(0) <- q; r8(4) <- m` and complete (R257, R258). -/
def putDiv8 (s : State) (qm : Byte × Byte) : State := ((s.setR8 0 qm.1).setR8 4 qm.2).complete

/-- `x[0] <- q; x[2] <- m` and complete (R257, R258). -/
def putDiv32 (s : State) (qm : Word × Word) : State := ((s.setGpr 0 qm.1).setGpr 2 qm.2).complete

/-- DIV, 8 bits (R257). -/
def div8 (s : State) : Except Fault State := do
  let d ← readRm acc8 s s.ops.rm
  let qm ← divide 8 (s.r16 0).toNat d.toNat (.one 0xF6) s.eip
  return putDiv8 s qm

/-- DIV, 32 bits (R257). -/
def div32 (s : State) : Except Fault State := do
  let d ← readRm acc32 s s.ops.rm
  let qm ← divide 32 s.edxEax.toNat d.toNat (.one 0xF7) s.eip
  return putDiv32 s qm

/-- IDIV, 8 bits (R258). -/
def idiv8 (s : State) : Except Fault State := do
  let d ← readRm acc8 s s.ops.rm
  let qm ← divideSigned 8 (s.r16 0).toInt d.toInt (.one 0xF6) s.eip
  return putDiv8 s qm

/-- IDIV, 32 bits (R258). -/
def idiv32 (s : State) : Except Fault State := do
  let d ← readRm acc32 s s.ops.rm
  let qm ← divideSigned 32 s.edxEax.toInt d.toInt (.one 0xF7) s.eip
  return putDiv32 s qm

/-! ### The instructions -/

/-- ADD r/m8, r8 (00 /r; R245). -/
def execAddRm8R8 (s : State) : Host.Outcome State Fault Refusal :=
  finish s (aluRm acc8 .add (s.r8 s.ops.reg) s)

/-- ADD r/m32, r32 (01 /r; R245). -/
def execAddRm32R32 (s : State) : Host.Outcome State Fault Refusal :=
  finish s (aluRm acc32 .add (s.gpr s.ops.reg) s)

/-- ADD r8, r/m8 (02 /r; R245). -/
def execAddR8Rm8 (s : State) : Host.Outcome State Fault Refusal :=
  finish s (aluRegRm acc8 .add s)

/-- ADD r32, r/m32 (03 /r; R245). -/
def execAddR32Rm32 (s : State) : Host.Outcome State Fault Refusal :=
  finish s (aluRegRm acc32 .add s)

/-- ADD AL, ib (04 ib; R245). -/
def execAddAlIb (s : State) : Host.Outcome State Fault Refusal :=
  .next (aluReg acc8 .add 0 (s.imm 8) s)

/-- ADD EAX, id (05 id; R245). -/
def execAddEaxId (s : State) : Host.Outcome State Fault Refusal :=
  .next (aluReg acc32 .add 0 (s.imm 32) s)

/-- ADD r/m8, ib (80 /0 ib; R245). -/
def execAddRm8Ib (s : State) : Host.Outcome State Fault Refusal :=
  finish s (aluRm acc8 .add (s.imm 8) s)

/-- ADD r/m32, id (81 /0 id; R245). -/
def execAddRm32Id (s : State) : Host.Outcome State Fault Refusal :=
  finish s (aluRm acc32 .add (s.imm 32) s)

/-- ADD r/m32, ib (83 /0 ib_sext; R245, sign-extended). -/
def execAddRm32Ib (s : State) : Host.Outcome State Fault Refusal :=
  finish s (aluRm acc32 .add (s.imm 32) s)

/-- ADC r/m8, r8 (10 /r; R246). -/
def execAdcRm8R8 (s : State) : Host.Outcome State Fault Refusal :=
  finish s (aluRm acc8 .adc (s.r8 s.ops.reg) s)

/-- ADC r/m32, r32 (11 /r; R246). -/
def execAdcRm32R32 (s : State) : Host.Outcome State Fault Refusal :=
  finish s (aluRm acc32 .adc (s.gpr s.ops.reg) s)

/-- ADC r8, r/m8 (12 /r; R246). -/
def execAdcR8Rm8 (s : State) : Host.Outcome State Fault Refusal :=
  finish s (aluRegRm acc8 .adc s)

/-- ADC r32, r/m32 (13 /r; R246). -/
def execAdcR32Rm32 (s : State) : Host.Outcome State Fault Refusal :=
  finish s (aluRegRm acc32 .adc s)

/-- ADC AL, ib (14 ib; R246). -/
def execAdcAlIb (s : State) : Host.Outcome State Fault Refusal :=
  .next (aluReg acc8 .adc 0 (s.imm 8) s)

/-- ADC EAX, id (15 id; R246). -/
def execAdcEaxId (s : State) : Host.Outcome State Fault Refusal :=
  .next (aluReg acc32 .adc 0 (s.imm 32) s)

/-- ADC r/m8, ib (80 /2 ib; R246). -/
def execAdcRm8Ib (s : State) : Host.Outcome State Fault Refusal :=
  finish s (aluRm acc8 .adc (s.imm 8) s)

/-- ADC r/m32, id (81 /2 id; R246). -/
def execAdcRm32Id (s : State) : Host.Outcome State Fault Refusal :=
  finish s (aluRm acc32 .adc (s.imm 32) s)

/-- ADC r/m32, ib (83 /2 ib_sext; R246, sign-extended). -/
def execAdcRm32Ib (s : State) : Host.Outcome State Fault Refusal :=
  finish s (aluRm acc32 .adc (s.imm 32) s)

/-- SUB r/m8, r8 (28 /r; R247). -/
def execSubRm8R8 (s : State) : Host.Outcome State Fault Refusal :=
  finish s (aluRm acc8 .sub (s.r8 s.ops.reg) s)

/-- SUB r/m32, r32 (29 /r; R247). -/
def execSubRm32R32 (s : State) : Host.Outcome State Fault Refusal :=
  finish s (aluRm acc32 .sub (s.gpr s.ops.reg) s)

/-- SUB r8, r/m8 (2A /r; R247). -/
def execSubR8Rm8 (s : State) : Host.Outcome State Fault Refusal :=
  finish s (aluRegRm acc8 .sub s)

/-- SUB r32, r/m32 (2B /r; R247). -/
def execSubR32Rm32 (s : State) : Host.Outcome State Fault Refusal :=
  finish s (aluRegRm acc32 .sub s)

/-- SUB AL, ib (2C ib; R247). -/
def execSubAlIb (s : State) : Host.Outcome State Fault Refusal :=
  .next (aluReg acc8 .sub 0 (s.imm 8) s)

/-- SUB EAX, id (2D id; R247). -/
def execSubEaxId (s : State) : Host.Outcome State Fault Refusal :=
  .next (aluReg acc32 .sub 0 (s.imm 32) s)

/-- SUB r/m8, ib (80 /5 ib; R247). -/
def execSubRm8Ib (s : State) : Host.Outcome State Fault Refusal :=
  finish s (aluRm acc8 .sub (s.imm 8) s)

/-- SUB r/m32, id (81 /5 id; R247). -/
def execSubRm32Id (s : State) : Host.Outcome State Fault Refusal :=
  finish s (aluRm acc32 .sub (s.imm 32) s)

/-- SUB r/m32, ib (83 /5 ib_sext; R247, sign-extended). -/
def execSubRm32Ib (s : State) : Host.Outcome State Fault Refusal :=
  finish s (aluRm acc32 .sub (s.imm 32) s)

/-- SBB r/m8, r8 (18 /r; R248). -/
def execSbbRm8R8 (s : State) : Host.Outcome State Fault Refusal :=
  finish s (aluRm acc8 .sbb (s.r8 s.ops.reg) s)

/-- SBB r/m32, r32 (19 /r; R248). -/
def execSbbRm32R32 (s : State) : Host.Outcome State Fault Refusal :=
  finish s (aluRm acc32 .sbb (s.gpr s.ops.reg) s)

/-- SBB r8, r/m8 (1A /r; R248). -/
def execSbbR8Rm8 (s : State) : Host.Outcome State Fault Refusal :=
  finish s (aluRegRm acc8 .sbb s)

/-- SBB r32, r/m32 (1B /r; R248). -/
def execSbbR32Rm32 (s : State) : Host.Outcome State Fault Refusal :=
  finish s (aluRegRm acc32 .sbb s)

/-- SBB AL, ib (1C ib; R248). -/
def execSbbAlIb (s : State) : Host.Outcome State Fault Refusal :=
  .next (aluReg acc8 .sbb 0 (s.imm 8) s)

/-- SBB EAX, id (1D id; R248). -/
def execSbbEaxId (s : State) : Host.Outcome State Fault Refusal :=
  .next (aluReg acc32 .sbb 0 (s.imm 32) s)

/-- SBB r/m8, ib (80 /3 ib; R248). -/
def execSbbRm8Ib (s : State) : Host.Outcome State Fault Refusal :=
  finish s (aluRm acc8 .sbb (s.imm 8) s)

/-- SBB r/m32, id (81 /3 id; R248). -/
def execSbbRm32Id (s : State) : Host.Outcome State Fault Refusal :=
  finish s (aluRm acc32 .sbb (s.imm 32) s)

/-- SBB r/m32, ib (83 /3 ib_sext; R248, sign-extended). -/
def execSbbRm32Ib (s : State) : Host.Outcome State Fault Refusal :=
  finish s (aluRm acc32 .sbb (s.imm 32) s)

/-- CMP r/m8, r8 (38 /r; R249). -/
def execCmpRm8R8 (s : State) : Host.Outcome State Fault Refusal :=
  finish s (aluRm acc8 .cmp (s.r8 s.ops.reg) s)

/-- CMP r/m32, r32 (39 /r; R249). -/
def execCmpRm32R32 (s : State) : Host.Outcome State Fault Refusal :=
  finish s (aluRm acc32 .cmp (s.gpr s.ops.reg) s)

/-- CMP r8, r/m8 (3A /r; R249). -/
def execCmpR8Rm8 (s : State) : Host.Outcome State Fault Refusal :=
  finish s (aluRegRm acc8 .cmp s)

/-- CMP r32, r/m32 (3B /r; R249). -/
def execCmpR32Rm32 (s : State) : Host.Outcome State Fault Refusal :=
  finish s (aluRegRm acc32 .cmp s)

/-- CMP AL, ib (3C ib; R249). -/
def execCmpAlIb (s : State) : Host.Outcome State Fault Refusal :=
  .next (aluReg acc8 .cmp 0 (s.imm 8) s)

/-- CMP EAX, id (3D id; R249). -/
def execCmpEaxId (s : State) : Host.Outcome State Fault Refusal :=
  .next (aluReg acc32 .cmp 0 (s.imm 32) s)

/-- CMP r/m8, ib (80 /7 ib; R249). -/
def execCmpRm8Ib (s : State) : Host.Outcome State Fault Refusal :=
  finish s (aluRm acc8 .cmp (s.imm 8) s)

/-- CMP r/m32, id (81 /7 id; R249). -/
def execCmpRm32Id (s : State) : Host.Outcome State Fault Refusal :=
  finish s (aluRm acc32 .cmp (s.imm 32) s)

/-- CMP r/m32, ib (83 /7 ib_sext; R249, sign-extended). -/
def execCmpRm32Ib (s : State) : Host.Outcome State Fault Refusal :=
  finish s (aluRm acc32 .cmp (s.imm 32) s)

/-- INC r32 (40+r; R250). -/
def execIncR32 (s : State) : Host.Outcome State Fault Refusal :=
  .next (unaryReg (addResult · 1) State.setAluKeepCf s)

/-- INC r/m8 (FE /0; R250). -/
def execIncRm8 (s : State) : Host.Outcome State Fault Refusal :=
  finish s (unaryRm acc8 (addResult · 1) State.setAluKeepCf s)

/-- INC r/m32 (FF /0; R250). -/
def execIncRm32 (s : State) : Host.Outcome State Fault Refusal :=
  finish s (unaryRm acc32 (addResult · 1) State.setAluKeepCf s)

/-- DEC r32 (48+r; R251). -/
def execDecR32 (s : State) : Host.Outcome State Fault Refusal :=
  .next (unaryReg (subResult · 1) State.setAluKeepCf s)

/-- DEC r/m8 (FE /1; R251). -/
def execDecRm8 (s : State) : Host.Outcome State Fault Refusal :=
  finish s (unaryRm acc8 (subResult · 1) State.setAluKeepCf s)

/-- DEC r/m32 (FF /1; R251). -/
def execDecRm32 (s : State) : Host.Outcome State Fault Refusal :=
  finish s (unaryRm acc32 (subResult · 1) State.setAluKeepCf s)

/-- NEG r/m8 (F6 /3; R252). -/
def execNegRm8 (s : State) : Host.Outcome State Fault Refusal :=
  finish s (unaryRm acc8 (subResult 0 ·) State.setAlu s)

/-- NEG r/m32 (F7 /3; R252). -/
def execNegRm32 (s : State) : Host.Outcome State Fault Refusal :=
  finish s (unaryRm acc32 (subResult 0 ·) State.setAlu s)

/-- MUL r/m8 (F6 /4; R253). -/
def execMulRm8 (s : State) : Host.Outcome State Fault Refusal :=
  finish s (mul8 s)

/-- MUL r/m32 (F7 /4; R253). -/
def execMulRm32 (s : State) : Host.Outcome State Fault Refusal :=
  finish s (mul32 s)

/-- IMUL r/m8 (F6 /5; R254). -/
def execImulRm8 (s : State) : Host.Outcome State Fault Refusal :=
  finish s (imul8 s)

/-- IMUL r/m32 (F7 /5; R254). -/
def execImulRm32 (s : State) : Host.Outcome State Fault Refusal :=
  finish s (imul32 s)

/-- DIV r/m8 (F6 /6; R257). -/
def execDivRm8 (s : State) : Host.Outcome State Fault Refusal :=
  finish s (div8 s)

/-- DIV r/m32 (F7 /6; R257). -/
def execDivRm32 (s : State) : Host.Outcome State Fault Refusal :=
  finish s (div32 s)

/-- IDIV r/m8 (F6 /7; R258). -/
def execIdivRm8 (s : State) : Host.Outcome State Fault Refusal :=
  finish s (idiv8 s)

/-- IDIV r/m32 (F7 /7; R258). -/
def execIdivRm32 (s : State) : Host.Outcome State Fault Refusal :=
  finish s (idiv32 s)

/-- IMUL r32, r/m32 (0F AF /r; R255). -/
def execImulR32Rm32 (s : State) : Host.Outcome State Fault Refusal :=
  finish s (imulReg (s.gpr s.ops.reg) s)

/-- IMUL r32, r/m32, id (69 /r id; R256). -/
def execImulR32Rm32Id (s : State) : Host.Outcome State Fault Refusal :=
  finish s (imulReg (s.imm 32) s)

/-- IMUL r32, r/m32, ib (6B /r ib_sext; R256, sign-extended). -/
def execImulR32Rm32Ib (s : State) : Host.Outcome State Fault Refusal :=
  finish s (imulReg (s.imm 32) s)

end Sys2Proof.Machine
end

