-- ==== Sys2Proof/Machine/Logic.lean ====
section
/-! DEFINITION. Logic and bit scans (spec/42_logic_shift_bit.md R280 to R287). -/

namespace Sys2Proof.Machine

/-- TEST with the destination r/m: only flags are written (R284). -/
def testRm {w : Nat} (acc : Access w) (src : BitVec w) (s : State) : Except Fault State := do
  let a ← readRm acc s s.ops.rm
  return (s.setAlu (logicResult (a &&& src))).complete

/-- TEST on AL or EAX (R284). -/
def testAcc {w : Nat} (acc : Access w) (src : BitVec w) (s : State) : State :=
  (s.setAlu (logicResult (acc.reg s 0 &&& src))).complete

/-- `Write(rm, w, ~Read(rm, w))`; no flag (R285). -/
def notRm {w : Nat} (acc : Access w) (s : State) : Except Fault State :=
  unaryRm acc (fun a => logicResult (~~~a)) (fun t _ => t) s

/-- The least `i` from `32 - n` up to 31 with `v[i] = 1` (R286); `n` counts the places left. -/
def lowestSet (v : Word) (n : Nat) : Nat :=
  match n with
  | 0 => 32
  | k + 1 => if v.getLsbD (31 - k) then 31 - k else lowestSet v k

/-- The greatest `i` below `n` with `v[i] = 1` (R287). -/
def highestSet (v : Word) (n : Nat) : Nat :=
  match n with
  | 0 => 0
  | k + 1 => if v.getLsbD k then k else highestSet v k

/-- BSF and BSR: a zero source sets ZF and keeps the destination (R286, R287). -/
def bitScan (find : Word → Nat) (s : State) : Except Fault State := do
  let v ← readRm acc32 s s.ops.rm
  if v = 0 then return (s.setZf true).complete
  else return ((s.setZf false).setGpr s.ops.reg (BitVec.ofNat 32 (find v))).complete

/-! ### The instructions -/

/-- AND r/m8, r8 (20 /r; R281). -/
def execAndRm8R8 (s : State) : Host.Outcome State Fault Refusal :=
  finish s (aluRm acc8 .and (s.r8 s.ops.reg) s)

/-- AND r/m32, r32 (21 /r; R281). -/
def execAndRm32R32 (s : State) : Host.Outcome State Fault Refusal :=
  finish s (aluRm acc32 .and (s.gpr s.ops.reg) s)

/-- AND r8, r/m8 (22 /r; R281). -/
def execAndR8Rm8 (s : State) : Host.Outcome State Fault Refusal :=
  finish s (aluRegRm acc8 .and s)

/-- AND r32, r/m32 (23 /r; R281). -/
def execAndR32Rm32 (s : State) : Host.Outcome State Fault Refusal :=
  finish s (aluRegRm acc32 .and s)

/-- AND AL, ib (24 ib; R281). -/
def execAndAlIb (s : State) : Host.Outcome State Fault Refusal :=
  .next (aluReg acc8 .and 0 (s.imm 8) s)

/-- AND EAX, id (25 id; R281). -/
def execAndEaxId (s : State) : Host.Outcome State Fault Refusal :=
  .next (aluReg acc32 .and 0 (s.imm 32) s)

/-- AND r/m8, ib (80 /4 ib; R281). -/
def execAndRm8Ib (s : State) : Host.Outcome State Fault Refusal :=
  finish s (aluRm acc8 .and (s.imm 8) s)

/-- AND r/m32, id (81 /4 id; R281). -/
def execAndRm32Id (s : State) : Host.Outcome State Fault Refusal :=
  finish s (aluRm acc32 .and (s.imm 32) s)

/-- AND r/m32, ib (83 /4 ib_sext; R281, sign-extended). -/
def execAndRm32Ib (s : State) : Host.Outcome State Fault Refusal :=
  finish s (aluRm acc32 .and (s.imm 32) s)

/-- OR r/m8, r8 (08 /r; R282). -/
def execOrRm8R8 (s : State) : Host.Outcome State Fault Refusal :=
  finish s (aluRm acc8 .or (s.r8 s.ops.reg) s)

/-- OR r/m32, r32 (09 /r; R282). -/
def execOrRm32R32 (s : State) : Host.Outcome State Fault Refusal :=
  finish s (aluRm acc32 .or (s.gpr s.ops.reg) s)

/-- OR r8, r/m8 (0A /r; R282). -/
def execOrR8Rm8 (s : State) : Host.Outcome State Fault Refusal :=
  finish s (aluRegRm acc8 .or s)

/-- OR r32, r/m32 (0B /r; R282). -/
def execOrR32Rm32 (s : State) : Host.Outcome State Fault Refusal :=
  finish s (aluRegRm acc32 .or s)

/-- OR AL, ib (0C ib; R282). -/
def execOrAlIb (s : State) : Host.Outcome State Fault Refusal :=
  .next (aluReg acc8 .or 0 (s.imm 8) s)

/-- OR EAX, id (0D id; R282). -/
def execOrEaxId (s : State) : Host.Outcome State Fault Refusal :=
  .next (aluReg acc32 .or 0 (s.imm 32) s)

/-- OR r/m8, ib (80 /1 ib; R282). -/
def execOrRm8Ib (s : State) : Host.Outcome State Fault Refusal :=
  finish s (aluRm acc8 .or (s.imm 8) s)

/-- OR r/m32, id (81 /1 id; R282). -/
def execOrRm32Id (s : State) : Host.Outcome State Fault Refusal :=
  finish s (aluRm acc32 .or (s.imm 32) s)

/-- OR r/m32, ib (83 /1 ib_sext; R282, sign-extended). -/
def execOrRm32Ib (s : State) : Host.Outcome State Fault Refusal :=
  finish s (aluRm acc32 .or (s.imm 32) s)

/-- XOR r/m8, r8 (30 /r; R283). -/
def execXorRm8R8 (s : State) : Host.Outcome State Fault Refusal :=
  finish s (aluRm acc8 .xor (s.r8 s.ops.reg) s)

/-- XOR r/m32, r32 (31 /r; R283). -/
def execXorRm32R32 (s : State) : Host.Outcome State Fault Refusal :=
  finish s (aluRm acc32 .xor (s.gpr s.ops.reg) s)

/-- XOR r8, r/m8 (32 /r; R283). -/
def execXorR8Rm8 (s : State) : Host.Outcome State Fault Refusal :=
  finish s (aluRegRm acc8 .xor s)

/-- XOR r32, r/m32 (33 /r; R283). -/
def execXorR32Rm32 (s : State) : Host.Outcome State Fault Refusal :=
  finish s (aluRegRm acc32 .xor s)

/-- XOR AL, ib (34 ib; R283). -/
def execXorAlIb (s : State) : Host.Outcome State Fault Refusal :=
  .next (aluReg acc8 .xor 0 (s.imm 8) s)

/-- XOR EAX, id (35 id; R283). -/
def execXorEaxId (s : State) : Host.Outcome State Fault Refusal :=
  .next (aluReg acc32 .xor 0 (s.imm 32) s)

/-- XOR r/m8, ib (80 /6 ib; R283). -/
def execXorRm8Ib (s : State) : Host.Outcome State Fault Refusal :=
  finish s (aluRm acc8 .xor (s.imm 8) s)

/-- XOR r/m32, id (81 /6 id; R283). -/
def execXorRm32Id (s : State) : Host.Outcome State Fault Refusal :=
  finish s (aluRm acc32 .xor (s.imm 32) s)

/-- XOR r/m32, ib (83 /6 ib_sext; R283, sign-extended). -/
def execXorRm32Ib (s : State) : Host.Outcome State Fault Refusal :=
  finish s (aluRm acc32 .xor (s.imm 32) s)

/-- TEST r/m8, r8 (84 /r; R284). -/
def execTestRm8R8 (s : State) : Host.Outcome State Fault Refusal :=
  finish s (testRm acc8 (s.r8 s.ops.reg) s)

/-- TEST r/m32, r32 (85 /r; R284). -/
def execTestRm32R32 (s : State) : Host.Outcome State Fault Refusal :=
  finish s (testRm acc32 (s.gpr s.ops.reg) s)

/-- TEST AL, ib (A8 ib; R284). -/
def execTestAlIb (s : State) : Host.Outcome State Fault Refusal :=
  .next (testAcc acc8 (s.imm 8) s)

/-- TEST EAX, id (A9 id; R284). -/
def execTestEaxId (s : State) : Host.Outcome State Fault Refusal :=
  .next (testAcc acc32 (s.imm 32) s)

/-- TEST r/m8, ib (F6 /0 ib; R284). -/
def execTestRm8Ib (s : State) : Host.Outcome State Fault Refusal :=
  finish s (testRm acc8 (s.imm 8) s)

/-- TEST r/m32, id (F7 /0 id; R284). -/
def execTestRm32Id (s : State) : Host.Outcome State Fault Refusal :=
  finish s (testRm acc32 (s.imm 32) s)

/-- NOT r/m8 (F6 /2; R285). -/
def execNotRm8 (s : State) : Host.Outcome State Fault Refusal :=
  finish s (notRm acc8 s)

/-- NOT r/m32 (F7 /2; R285). -/
def execNotRm32 (s : State) : Host.Outcome State Fault Refusal :=
  finish s (notRm acc32 s)

/-- BSF r32, r/m32 (0F BC /r; R286). -/
def execBsfR32Rm32 (s : State) : Host.Outcome State Fault Refusal :=
  finish s (bitScan (lowestSet · 32) s)

/-- BSR r32, r/m32 (0F BD /r; R287). -/
def execBsrR32Rm32 (s : State) : Host.Outcome State Fault Refusal :=
  finish s (bitScan (highestSet · 32) s)

end Sys2Proof.Machine
end

