-- ==== Sys2Proof/Machine/Shift.lean ====
section
/-! DEFINITION. Shifts and rotates (spec/42_logic_shift_bit.md R290 to R299). -/

namespace Sys2Proof.Machine

/-- The masked count: `raw & 0x1F` (R290). -/
def maskedCount (raw : Byte) : Nat := raw.toNat % 32

/-- A shift or rotate of r/m by `raw` (R290): the operand is read first; a masked count of 0 writes nothing. -/
def shiftRm {w : Nat} (acc : Access w) (op : ShiftOp) (raw : Byte) (s : State) : Except Fault State := do
  let a ← readRm acc s s.ops.rm
  if maskedCount raw = 0 then return s.complete
  else
    let r := shiftResult op s.cf a (maskedCount raw)
    let t ← writeRm acc s s.ops.rm r.val
    return (t.setShift op r).complete

/-! ### The instructions -/

/-- ROL r/m8, ib (C0 /0 ib; R293). -/
def execRolRm8Ib (s : State) : Host.Outcome State Fault Refusal :=
  finish s (shiftRm acc8 .rol (s.imm 8) s)

/-- ROL r/m8, 1 (D0 /0; R293). -/
def execRolRm8One (s : State) : Host.Outcome State Fault Refusal :=
  finish s (shiftRm acc8 .rol 1 s)

/-- ROL r/m8, CL (D2 /0; R293). -/
def execRolRm8Cl (s : State) : Host.Outcome State Fault Refusal :=
  finish s (shiftRm acc8 .rol (s.r8 1) s)

/-- ROL r/m32, ib (C1 /0 ib; R293). -/
def execRolRm32Ib (s : State) : Host.Outcome State Fault Refusal :=
  finish s (shiftRm acc32 .rol (s.imm 8) s)

/-- ROL r/m32, 1 (D1 /0; R293). -/
def execRolRm32One (s : State) : Host.Outcome State Fault Refusal :=
  finish s (shiftRm acc32 .rol 1 s)

/-- ROL r/m32, CL (D3 /0; R293). -/
def execRolRm32Cl (s : State) : Host.Outcome State Fault Refusal :=
  finish s (shiftRm acc32 .rol (s.r8 1) s)

/-- ROR r/m8, ib (C0 /1 ib; R294). -/
def execRorRm8Ib (s : State) : Host.Outcome State Fault Refusal :=
  finish s (shiftRm acc8 .ror (s.imm 8) s)

/-- ROR r/m8, 1 (D0 /1; R294). -/
def execRorRm8One (s : State) : Host.Outcome State Fault Refusal :=
  finish s (shiftRm acc8 .ror 1 s)

/-- ROR r/m8, CL (D2 /1; R294). -/
def execRorRm8Cl (s : State) : Host.Outcome State Fault Refusal :=
  finish s (shiftRm acc8 .ror (s.r8 1) s)

/-- ROR r/m32, ib (C1 /1 ib; R294). -/
def execRorRm32Ib (s : State) : Host.Outcome State Fault Refusal :=
  finish s (shiftRm acc32 .ror (s.imm 8) s)

/-- ROR r/m32, 1 (D1 /1; R294). -/
def execRorRm32One (s : State) : Host.Outcome State Fault Refusal :=
  finish s (shiftRm acc32 .ror 1 s)

/-- ROR r/m32, CL (D3 /1; R294). -/
def execRorRm32Cl (s : State) : Host.Outcome State Fault Refusal :=
  finish s (shiftRm acc32 .ror (s.r8 1) s)

/-- RCL r/m8, ib (C0 /2 ib; R295). -/
def execRclRm8Ib (s : State) : Host.Outcome State Fault Refusal :=
  finish s (shiftRm acc8 .rcl (s.imm 8) s)

/-- RCL r/m8, 1 (D0 /2; R295). -/
def execRclRm8One (s : State) : Host.Outcome State Fault Refusal :=
  finish s (shiftRm acc8 .rcl 1 s)

/-- RCL r/m8, CL (D2 /2; R295). -/
def execRclRm8Cl (s : State) : Host.Outcome State Fault Refusal :=
  finish s (shiftRm acc8 .rcl (s.r8 1) s)

/-- RCL r/m32, ib (C1 /2 ib; R295). -/
def execRclRm32Ib (s : State) : Host.Outcome State Fault Refusal :=
  finish s (shiftRm acc32 .rcl (s.imm 8) s)

/-- RCL r/m32, 1 (D1 /2; R295). -/
def execRclRm32One (s : State) : Host.Outcome State Fault Refusal :=
  finish s (shiftRm acc32 .rcl 1 s)

/-- RCL r/m32, CL (D3 /2; R295). -/
def execRclRm32Cl (s : State) : Host.Outcome State Fault Refusal :=
  finish s (shiftRm acc32 .rcl (s.r8 1) s)

/-- RCR r/m8, ib (C0 /3 ib; R296). -/
def execRcrRm8Ib (s : State) : Host.Outcome State Fault Refusal :=
  finish s (shiftRm acc8 .rcr (s.imm 8) s)

/-- RCR r/m8, 1 (D0 /3; R296). -/
def execRcrRm8One (s : State) : Host.Outcome State Fault Refusal :=
  finish s (shiftRm acc8 .rcr 1 s)

/-- RCR r/m8, CL (D2 /3; R296). -/
def execRcrRm8Cl (s : State) : Host.Outcome State Fault Refusal :=
  finish s (shiftRm acc8 .rcr (s.r8 1) s)

/-- RCR r/m32, ib (C1 /3 ib; R296). -/
def execRcrRm32Ib (s : State) : Host.Outcome State Fault Refusal :=
  finish s (shiftRm acc32 .rcr (s.imm 8) s)

/-- RCR r/m32, 1 (D1 /3; R296). -/
def execRcrRm32One (s : State) : Host.Outcome State Fault Refusal :=
  finish s (shiftRm acc32 .rcr 1 s)

/-- RCR r/m32, CL (D3 /3; R296). -/
def execRcrRm32Cl (s : State) : Host.Outcome State Fault Refusal :=
  finish s (shiftRm acc32 .rcr (s.r8 1) s)

/-- SHL r/m8, ib (C0 /4 ib; R297). -/
def execShlRm8Ib (s : State) : Host.Outcome State Fault Refusal :=
  finish s (shiftRm acc8 .shl (s.imm 8) s)

/-- SHL r/m8, 1 (D0 /4; R297). -/
def execShlRm8One (s : State) : Host.Outcome State Fault Refusal :=
  finish s (shiftRm acc8 .shl 1 s)

/-- SHL r/m8, CL (D2 /4; R297). -/
def execShlRm8Cl (s : State) : Host.Outcome State Fault Refusal :=
  finish s (shiftRm acc8 .shl (s.r8 1) s)

/-- SHL r/m32, ib (C1 /4 ib; R297). -/
def execShlRm32Ib (s : State) : Host.Outcome State Fault Refusal :=
  finish s (shiftRm acc32 .shl (s.imm 8) s)

/-- SHL r/m32, 1 (D1 /4; R297). -/
def execShlRm32One (s : State) : Host.Outcome State Fault Refusal :=
  finish s (shiftRm acc32 .shl 1 s)

/-- SHL r/m32, CL (D3 /4; R297). -/
def execShlRm32Cl (s : State) : Host.Outcome State Fault Refusal :=
  finish s (shiftRm acc32 .shl (s.r8 1) s)

/-- SHR r/m8, ib (C0 /5 ib; R298). -/
def execShrRm8Ib (s : State) : Host.Outcome State Fault Refusal :=
  finish s (shiftRm acc8 .shr (s.imm 8) s)

/-- SHR r/m8, 1 (D0 /5; R298). -/
def execShrRm8One (s : State) : Host.Outcome State Fault Refusal :=
  finish s (shiftRm acc8 .shr 1 s)

/-- SHR r/m8, CL (D2 /5; R298). -/
def execShrRm8Cl (s : State) : Host.Outcome State Fault Refusal :=
  finish s (shiftRm acc8 .shr (s.r8 1) s)

/-- SHR r/m32, ib (C1 /5 ib; R298). -/
def execShrRm32Ib (s : State) : Host.Outcome State Fault Refusal :=
  finish s (shiftRm acc32 .shr (s.imm 8) s)

/-- SHR r/m32, 1 (D1 /5; R298). -/
def execShrRm32One (s : State) : Host.Outcome State Fault Refusal :=
  finish s (shiftRm acc32 .shr 1 s)

/-- SHR r/m32, CL (D3 /5; R298). -/
def execShrRm32Cl (s : State) : Host.Outcome State Fault Refusal :=
  finish s (shiftRm acc32 .shr (s.r8 1) s)

/-- SAR r/m8, ib (C0 /7 ib; R299). -/
def execSarRm8Ib (s : State) : Host.Outcome State Fault Refusal :=
  finish s (shiftRm acc8 .sar (s.imm 8) s)

/-- SAR r/m8, 1 (D0 /7; R299). -/
def execSarRm8One (s : State) : Host.Outcome State Fault Refusal :=
  finish s (shiftRm acc8 .sar 1 s)

/-- SAR r/m8, CL (D2 /7; R299). -/
def execSarRm8Cl (s : State) : Host.Outcome State Fault Refusal :=
  finish s (shiftRm acc8 .sar (s.r8 1) s)

/-- SAR r/m32, ib (C1 /7 ib; R299). -/
def execSarRm32Ib (s : State) : Host.Outcome State Fault Refusal :=
  finish s (shiftRm acc32 .sar (s.imm 8) s)

/-- SAR r/m32, 1 (D1 /7; R299). -/
def execSarRm32One (s : State) : Host.Outcome State Fault Refusal :=
  finish s (shiftRm acc32 .sar 1 s)

/-- SAR r/m32, CL (D3 /7; R299). -/
def execSarRm32Cl (s : State) : Host.Outcome State Fault Refusal :=
  finish s (shiftRm acc32 .sar (s.r8 1) s)

end Sys2Proof.Machine
end

