-- ==== Sys2Proof/Machine/Stack.lean ====
section
/-! DEFINITION. Stack instructions (spec/43_stack.md R320 to R328). -/

namespace Sys2Proof.Machine

/-- Push and complete (R320 to R323). -/
def pushValue (v : Word) (s : State) : Except Fault State := do
  let t ← push32 s v
  return t.complete

/-- PUSH r/m32: the operand is read before ESP changes (R323). -/
def pushRm (s : State) : Except Fault State := do
  let v ← readRm acc32 s s.ops.rm
  pushValue v s

/-- POP r32: the register is written after ESP advances (R324). -/
def popReg (s : State) : Except Fault State := do
  let p ← pop32 s
  return (p.2.setGpr s.ops.reg p.1).complete

/-- POP r/m32: a memory address is formed with the advanced ESP (R325). -/
def popRm (s : State) : Except Fault State := do
  let p ← pop32 s
  let t ← writeRm acc32 p.2 s.ops.rm p.1
  return t.complete

/-- The eight registers as PUSHAD stores them: EAX at the highest address, EDI at the lowest (R326). -/
def pushadImage (s : State) : BitVec 256 :=
  s.gpr 0 ++ s.gpr 1 ++ s.gpr 2 ++ s.gpr 3 ++ s.gpr 4 ++ s.gpr 5 ++ s.gpr 6 ++ s.gpr 7

/-- PUSHAD (R326): one check over the 32 bytes below ESP, then the eight words (log 13). -/
def pushAll (s : State) : Except Fault State := do
  let a := s.gpr 4 - 32
  let t ← s.memWrite a (pushadImage s)
  return (t.setGpr 4 a).complete

/-- POPAD (R327): one check over the 32 bytes at ESP, then seven words; the ESP image at offset 12 is read past
(log 13). -/
def popAll (s : State) : Except Fault State := do
  let m ← s.memRead 256 (s.gpr 4)
  let t := (s.setGpr 7 (m.extractLsb' 0 32)).setGpr 6 (m.extractLsb' 32 32)
  let t := (t.setGpr 5 (m.extractLsb' 64 32)).setGpr 3 (m.extractLsb' 128 32)
  let t := (t.setGpr 2 (m.extractLsb' 160 32)).setGpr 1 (m.extractLsb' 192 32)
  let t := (t.setGpr 0 (m.extractLsb' 224 32)).setGpr 4 (s.gpr 4 + 32)
  return t.complete

/-- LEAVE (R328). -/
def leaveFrame (s : State) : Except Fault State := do
  let v ← s.memRead 32 (s.gpr 5)
  return ((s.setGpr 4 (s.gpr 5 + 4)).setGpr 5 v).complete

/-! ### The instructions -/

/-- PUSH r32 (50+r; R321). -/
def execPushR32 (s : State) : Host.Outcome State Fault Refusal :=
  finish s (pushValue (s.gpr s.ops.reg) s)

/-- PUSH id (68 id; R322). -/
def execPushId (s : State) : Host.Outcome State Fault Refusal :=
  finish s (pushValue (s.imm 32) s)

/-- PUSH ib (6A ib_sext; R322, sign-extended). -/
def execPushIb (s : State) : Host.Outcome State Fault Refusal :=
  finish s (pushValue (s.imm 32) s)

/-- PUSH r/m32 (FF /6; R323). -/
def execPushRm32 (s : State) : Host.Outcome State Fault Refusal :=
  finish s (pushRm s)

/-- POP r32 (58+r; R324). -/
def execPopR32 (s : State) : Host.Outcome State Fault Refusal :=
  finish s (popReg s)

/-- POP r/m32 (8F /0; R325). -/
def execPopRm32 (s : State) : Host.Outcome State Fault Refusal :=
  finish s (popRm s)

/-- PUSHAD (60; R326). -/
def execPushad (s : State) : Host.Outcome State Fault Refusal :=
  finish s (pushAll s)

/-- POPAD (61; R327). -/
def execPopad (s : State) : Host.Outcome State Fault Refusal :=
  finish s (popAll s)

/-- LEAVE (C9; R328). -/
def execLeave (s : State) : Host.Outcome State Fault Refusal :=
  finish s (leaveFrame s)

end Sys2Proof.Machine
end

