-- ==== Sys2Proof/Machine/Control.lean ====
section
/-! DEFINITION. Control flow, conditions, software interrupts, HLT and the flag instructions
(spec/44_control_flow.md R340 to R361). -/

namespace Sys2Proof.Machine

/-- `eip <- w32(next + rel)` if the condition holds, else `eip <- next` (R345). -/
def jumpIf (c : Cond) (s : State) : State := if c.holds s then s.jump s.relTarget else s.complete

/-- JMP r/m32 (R344). -/
def jumpRm (s : State) : Except Fault State := do
  let t ← readRm acc32 s s.ops.rm
  return s.jump t

/-- Push the return address and transfer to `target` (R346, R347). -/
def callTo (target : Word) (s : State) : Except Fault State := do
  let t ← push32 s s.next
  return t.jump target

/-- CALL r/m32: the target is read before ESP changes (R347). -/
def callRm (s : State) : Except Fault State := do
  let t ← readRm acc32 s s.ops.rm
  callTo t s

/-- Pop the return address, release `extra` bytes and transfer to it (R348, R349). -/
def returnBy (extra : Word) (s : State) : Except Fault State := do
  let p ← pop32 s
  return (p.2.setGpr 4 (p.2.gpr 4 + extra)).jump p.1

/-- SETcc: the destination is always written (R350). -/
def setIf (c : Cond) (s : State) : Except Fault State := storeRm acc8 s (if c.holds s then 1 else 0)

/-- CMOVcc: the source is read whether or not the condition holds (R351). -/
def moveIf (c : Cond) (s : State) : Except Fault State := do
  let v ← readRm acc32 s s.ops.rm
  return (if c.holds s then s.setGpr s.ops.reg v else s).complete

/-- A row with the parity condition raises UnsupportedCondition (R341, R506). -/
def parityFault (key : OpKey) (s : State) : Except Fault State := .error (.unsupportedCondition key s.eip)

/-! ### The instructions -/

/-- JMP rel8 (EB rel8; R343). -/
def execJmpRel8 (s : State) : Host.Outcome State Fault Refusal :=
  .next (s.jump s.relTarget)

/-- JMP rel32 (E9 rel32; R343). -/
def execJmpRel32 (s : State) : Host.Outcome State Fault Refusal :=
  .next (s.jump s.relTarget)

/-- JMP r/m32 (FF /4; R344). -/
def execJmpRm32 (s : State) : Host.Outcome State Fault Refusal :=
  finish s (jumpRm s)

/-- JO rel8 (70 rel8; R345). -/
def execJoRel8 (s : State) : Host.Outcome State Fault Refusal :=
  .next (jumpIf .o s)

/-- JNO rel8 (71 rel8; R345). -/
def execJnoRel8 (s : State) : Host.Outcome State Fault Refusal :=
  .next (jumpIf .no s)

/-- JB rel8 (72 rel8; R345). -/
def execJbRel8 (s : State) : Host.Outcome State Fault Refusal :=
  .next (jumpIf .b s)

/-- JAE rel8 (73 rel8; R345). -/
def execJaeRel8 (s : State) : Host.Outcome State Fault Refusal :=
  .next (jumpIf .ae s)

/-- JE rel8 (74 rel8; R345). -/
def execJeRel8 (s : State) : Host.Outcome State Fault Refusal :=
  .next (jumpIf .e s)

/-- JNE rel8 (75 rel8; R345). -/
def execJneRel8 (s : State) : Host.Outcome State Fault Refusal :=
  .next (jumpIf .ne s)

/-- JBE rel8 (76 rel8; R345). -/
def execJbeRel8 (s : State) : Host.Outcome State Fault Refusal :=
  .next (jumpIf .be s)

/-- JA rel8 (77 rel8; R345). -/
def execJaRel8 (s : State) : Host.Outcome State Fault Refusal :=
  .next (jumpIf .a s)

/-- JS rel8 (78 rel8; R345). -/
def execJsRel8 (s : State) : Host.Outcome State Fault Refusal :=
  .next (jumpIf .s s)

/-- JNS rel8 (79 rel8; R345). -/
def execJnsRel8 (s : State) : Host.Outcome State Fault Refusal :=
  .next (jumpIf .ns s)

/-- JP rel8 (7A rel8; R341). -/
def execJpRel8 (s : State) : Host.Outcome State Fault Refusal :=
  finish s (parityFault (.one 0x7A) s)

/-- JNP rel8 (7B rel8; R341). -/
def execJnpRel8 (s : State) : Host.Outcome State Fault Refusal :=
  finish s (parityFault (.one 0x7B) s)

/-- JL rel8 (7C rel8; R345). -/
def execJlRel8 (s : State) : Host.Outcome State Fault Refusal :=
  .next (jumpIf .l s)

/-- JGE rel8 (7D rel8; R345). -/
def execJgeRel8 (s : State) : Host.Outcome State Fault Refusal :=
  .next (jumpIf .ge s)

/-- JLE rel8 (7E rel8; R345). -/
def execJleRel8 (s : State) : Host.Outcome State Fault Refusal :=
  .next (jumpIf .le s)

/-- JG rel8 (7F rel8; R345). -/
def execJgRel8 (s : State) : Host.Outcome State Fault Refusal :=
  .next (jumpIf .g s)

/-- CMOVO r32, r/m32 (0F 40 /r; R351). -/
def execCmovoR32Rm32 (s : State) : Host.Outcome State Fault Refusal :=
  finish s (moveIf .o s)

/-- CMOVNO r32, r/m32 (0F 41 /r; R351). -/
def execCmovnoR32Rm32 (s : State) : Host.Outcome State Fault Refusal :=
  finish s (moveIf .no s)

/-- CMOVB r32, r/m32 (0F 42 /r; R351). -/
def execCmovbR32Rm32 (s : State) : Host.Outcome State Fault Refusal :=
  finish s (moveIf .b s)

/-- CMOVAE r32, r/m32 (0F 43 /r; R351). -/
def execCmovaeR32Rm32 (s : State) : Host.Outcome State Fault Refusal :=
  finish s (moveIf .ae s)

/-- CMOVE r32, r/m32 (0F 44 /r; R351). -/
def execCmoveR32Rm32 (s : State) : Host.Outcome State Fault Refusal :=
  finish s (moveIf .e s)

/-- CMOVNE r32, r/m32 (0F 45 /r; R351). -/
def execCmovneR32Rm32 (s : State) : Host.Outcome State Fault Refusal :=
  finish s (moveIf .ne s)

/-- CMOVBE r32, r/m32 (0F 46 /r; R351). -/
def execCmovbeR32Rm32 (s : State) : Host.Outcome State Fault Refusal :=
  finish s (moveIf .be s)

/-- CMOVA r32, r/m32 (0F 47 /r; R351). -/
def execCmovaR32Rm32 (s : State) : Host.Outcome State Fault Refusal :=
  finish s (moveIf .a s)

/-- CMOVS r32, r/m32 (0F 48 /r; R351). -/
def execCmovsR32Rm32 (s : State) : Host.Outcome State Fault Refusal :=
  finish s (moveIf .s s)

/-- CMOVNS r32, r/m32 (0F 49 /r; R351). -/
def execCmovnsR32Rm32 (s : State) : Host.Outcome State Fault Refusal :=
  finish s (moveIf .ns s)

/-- CMOVP r32, r/m32 (0F 4A /r; R341). -/
def execCmovpR32Rm32 (s : State) : Host.Outcome State Fault Refusal :=
  finish s (parityFault (.two 0x4A) s)

/-- CMOVNP r32, r/m32 (0F 4B /r; R341). -/
def execCmovnpR32Rm32 (s : State) : Host.Outcome State Fault Refusal :=
  finish s (parityFault (.two 0x4B) s)

/-- CMOVL r32, r/m32 (0F 4C /r; R351). -/
def execCmovlR32Rm32 (s : State) : Host.Outcome State Fault Refusal :=
  finish s (moveIf .l s)

/-- CMOVGE r32, r/m32 (0F 4D /r; R351). -/
def execCmovgeR32Rm32 (s : State) : Host.Outcome State Fault Refusal :=
  finish s (moveIf .ge s)

/-- CMOVLE r32, r/m32 (0F 4E /r; R351). -/
def execCmovleR32Rm32 (s : State) : Host.Outcome State Fault Refusal :=
  finish s (moveIf .le s)

/-- CMOVG r32, r/m32 (0F 4F /r; R351). -/
def execCmovgR32Rm32 (s : State) : Host.Outcome State Fault Refusal :=
  finish s (moveIf .g s)

/-- JO rel32 (0F 80 rel32; R345). -/
def execJoRel32 (s : State) : Host.Outcome State Fault Refusal :=
  .next (jumpIf .o s)

/-- JNO rel32 (0F 81 rel32; R345). -/
def execJnoRel32 (s : State) : Host.Outcome State Fault Refusal :=
  .next (jumpIf .no s)

/-- JB rel32 (0F 82 rel32; R345). -/
def execJbRel32 (s : State) : Host.Outcome State Fault Refusal :=
  .next (jumpIf .b s)

/-- JAE rel32 (0F 83 rel32; R345). -/
def execJaeRel32 (s : State) : Host.Outcome State Fault Refusal :=
  .next (jumpIf .ae s)

/-- JE rel32 (0F 84 rel32; R345). -/
def execJeRel32 (s : State) : Host.Outcome State Fault Refusal :=
  .next (jumpIf .e s)

/-- JNE rel32 (0F 85 rel32; R345). -/
def execJneRel32 (s : State) : Host.Outcome State Fault Refusal :=
  .next (jumpIf .ne s)

/-- JBE rel32 (0F 86 rel32; R345). -/
def execJbeRel32 (s : State) : Host.Outcome State Fault Refusal :=
  .next (jumpIf .be s)

/-- JA rel32 (0F 87 rel32; R345). -/
def execJaRel32 (s : State) : Host.Outcome State Fault Refusal :=
  .next (jumpIf .a s)

/-- JS rel32 (0F 88 rel32; R345). -/
def execJsRel32 (s : State) : Host.Outcome State Fault Refusal :=
  .next (jumpIf .s s)

/-- JNS rel32 (0F 89 rel32; R345). -/
def execJnsRel32 (s : State) : Host.Outcome State Fault Refusal :=
  .next (jumpIf .ns s)

/-- JP rel32 (0F 8A rel32; R341). -/
def execJpRel32 (s : State) : Host.Outcome State Fault Refusal :=
  finish s (parityFault (.two 0x8A) s)

/-- JNP rel32 (0F 8B rel32; R341). -/
def execJnpRel32 (s : State) : Host.Outcome State Fault Refusal :=
  finish s (parityFault (.two 0x8B) s)

/-- JL rel32 (0F 8C rel32; R345). -/
def execJlRel32 (s : State) : Host.Outcome State Fault Refusal :=
  .next (jumpIf .l s)

/-- JGE rel32 (0F 8D rel32; R345). -/
def execJgeRel32 (s : State) : Host.Outcome State Fault Refusal :=
  .next (jumpIf .ge s)

/-- JLE rel32 (0F 8E rel32; R345). -/
def execJleRel32 (s : State) : Host.Outcome State Fault Refusal :=
  .next (jumpIf .le s)

/-- JG rel32 (0F 8F rel32; R345). -/
def execJgRel32 (s : State) : Host.Outcome State Fault Refusal :=
  .next (jumpIf .g s)

/-- SETO r/m8 (0F 90 /r; R350). -/
def execSetoRm8 (s : State) : Host.Outcome State Fault Refusal :=
  finish s (setIf .o s)

/-- SETNO r/m8 (0F 91 /r; R350). -/
def execSetnoRm8 (s : State) : Host.Outcome State Fault Refusal :=
  finish s (setIf .no s)

/-- SETB r/m8 (0F 92 /r; R350). -/
def execSetbRm8 (s : State) : Host.Outcome State Fault Refusal :=
  finish s (setIf .b s)

/-- SETAE r/m8 (0F 93 /r; R350). -/
def execSetaeRm8 (s : State) : Host.Outcome State Fault Refusal :=
  finish s (setIf .ae s)

/-- SETE r/m8 (0F 94 /r; R350). -/
def execSeteRm8 (s : State) : Host.Outcome State Fault Refusal :=
  finish s (setIf .e s)

/-- SETNE r/m8 (0F 95 /r; R350). -/
def execSetneRm8 (s : State) : Host.Outcome State Fault Refusal :=
  finish s (setIf .ne s)

/-- SETBE r/m8 (0F 96 /r; R350). -/
def execSetbeRm8 (s : State) : Host.Outcome State Fault Refusal :=
  finish s (setIf .be s)

/-- SETA r/m8 (0F 97 /r; R350). -/
def execSetaRm8 (s : State) : Host.Outcome State Fault Refusal :=
  finish s (setIf .a s)

/-- SETS r/m8 (0F 98 /r; R350). -/
def execSetsRm8 (s : State) : Host.Outcome State Fault Refusal :=
  finish s (setIf .s s)

/-- SETNS r/m8 (0F 99 /r; R350). -/
def execSetnsRm8 (s : State) : Host.Outcome State Fault Refusal :=
  finish s (setIf .ns s)

/-- SETP r/m8 (0F 9A /r; R341). -/
def execSetpRm8 (s : State) : Host.Outcome State Fault Refusal :=
  finish s (parityFault (.two 0x9A) s)

/-- SETNP r/m8 (0F 9B /r; R341). -/
def execSetnpRm8 (s : State) : Host.Outcome State Fault Refusal :=
  finish s (parityFault (.two 0x9B) s)

/-- SETL r/m8 (0F 9C /r; R350). -/
def execSetlRm8 (s : State) : Host.Outcome State Fault Refusal :=
  finish s (setIf .l s)

/-- SETGE r/m8 (0F 9D /r; R350). -/
def execSetgeRm8 (s : State) : Host.Outcome State Fault Refusal :=
  finish s (setIf .ge s)

/-- SETLE r/m8 (0F 9E /r; R350). -/
def execSetleRm8 (s : State) : Host.Outcome State Fault Refusal :=
  finish s (setIf .le s)

/-- SETG r/m8 (0F 9F /r; R350). -/
def execSetgRm8 (s : State) : Host.Outcome State Fault Refusal :=
  finish s (setIf .g s)

/-- CALL rel32 (E8 rel32; R346). -/
def execCallRel32 (s : State) : Host.Outcome State Fault Refusal :=
  finish s (callTo s.relTarget s)

/-- CALL r/m32 (FF /2; R347). -/
def execCallRm32 (s : State) : Host.Outcome State Fault Refusal :=
  finish s (callRm s)

/-- RET (C3; R348). -/
def execRet (s : State) : Host.Outcome State Fault Refusal :=
  finish s (returnBy 0 s)

/-- RET iw (C2 iw; R349). -/
def execRetIw (s : State) : Host.Outcome State Fault Refusal :=
  finish s (returnBy (s.imm 32) s)

/-- INT ib (CD ib; R352). -/
def execIntIb (s : State) : Host.Outcome State Fault Refusal :=
  .next (s.interrupt (s.imm 8))

/-- INT3 (CC; R353). -/
def execInt3 (s : State) : Host.Outcome State Fault Refusal :=
  .next (s.interrupt 3)

/-- HLT (F4; R354). -/
def execHlt (s : State) : Host.Outcome State Fault Refusal :=
  .next { s.complete with halted := true }

/-- NOP (90; R355). -/
def execNop (s : State) : Host.Outcome State Fault Refusal :=
  .next s.complete

/-- NOP r/m32 (0F 1F /0; R355, the operand is not accessed). -/
def execNopRm32 (s : State) : Host.Outcome State Fault Refusal :=
  .next s.complete

/-- WAIT (9B; R356). -/
def execWait (s : State) : Host.Outcome State Fault Refusal :=
  .next s.complete

/-- CLC (F8; R357). -/
def execClc (s : State) : Host.Outcome State Fault Refusal :=
  .next (s.setCf false).complete

/-- STC (F9; R358). -/
def execStc (s : State) : Host.Outcome State Fault Refusal :=
  .next (s.setCf true).complete

/-- CMC (F5; R359). -/
def execCmc (s : State) : Host.Outcome State Fault Refusal :=
  .next (s.setCf !s.cf).complete

/-- CLD (FC; R360). -/
def execCld (s : State) : Host.Outcome State Fault Refusal :=
  .next (s.setDf false).complete

/-- STD (FD; R361). -/
def execStd (s : State) : Host.Outcome State Fault Refusal :=
  .next (s.setDf true).complete

end Sys2Proof.Machine
end

