-- ==== Sys2Proof/Machine/Strings.lean ====
section
/-! DEFINITION. String instructions (spec/45_string.md R380 to R386). -/

namespace Sys2Proof.Machine

/-- The pointer step: `k` bytes up, or down when DF is set (R380). -/
def pointerStep (s : State) (k : Nat) : Word := if s.df then -(BitVec.ofNat 32 k) else BitVec.ofNat 32 k

/-- `Adv(i)` (R380). -/
def advance (k : Nat) (s : State) (i : Reg) : State := s.setGpr i (s.gpr i + pointerStep s k)

/-- `SrcAddr` (R380): ESI after the segment override. -/
def srcAddr (s : State) : Word := resolveSeg s (s.gpr 6)

/-- `DstAddr` (R380): EDI, never overridden. -/
def dstAddr (s : State) : Word := s.gpr 7

/-- The body of MOVS (R382). -/
def movsBody (w : Nat) (s : State) : Except Fault State := do
  let v ← s.memRead w (srcAddr s)
  let t ← s.memWrite (dstAddr s) v
  return advance (w / 8) (advance (w / 8) t 6) 7

/-- The body of STOS (R383). -/
def stosBody {w : Nat} (acc : Access w) (s : State) : Except Fault State := do
  let t ← s.memWrite (dstAddr s) (acc.reg s 0)
  return advance (w / 8) t 7

/-- The body of LODS (R384). -/
def lodsBody {w : Nat} (acc : Access w) (s : State) : Except Fault State := do
  let v ← s.memRead w (srcAddr s)
  return advance (w / 8) (acc.setReg s 0 v) 6

/-- The body of SCAS (R385). -/
def scasBody {w : Nat} (acc : Access w) (s : State) : Except Fault State := do
  let m ← s.memRead w (dstAddr s)
  return advance (w / 8) (s.setAlu (subResult (acc.reg s 0) m)) 7

/-- The body of CMPS (R386): `[ESI]` is the minuend. -/
def cmpsBody (w : Nat) (s : State) : Except Fault State := do
  let a ← s.memRead w (srcAddr s)
  let b ← s.memRead w (dstAddr s)
  return advance (w / 8) (advance (w / 8) (s.setAlu (subResult a b)) 6) 7

/-- No early end: MOVS, STOS and LODS (R381). -/
def neverStop (_ : State) : Bool := false

/-- The early end of SCAS and CMPS (R381): a mismatch under REPE, a match under REPNE. -/
def stopOnFlag (s : State) : Bool :=
  match s.rep with
  | .none => false
  | .repe => !s.zf
  | .repne => s.zf

/-- The loop of R381 with `n` iterations left at most: where it ends, and the fault that ended it, if any. The
effects of the iterations before the fault stay. -/
def repLoop (body : State → Except Fault State) (stop : State → Bool) (n : Nat) (s : State) :
    State × Option Fault :=
  match n with
  | 0 => (s, none)
  | k + 1 =>
    match body s with
    | .error f => (s, some f)
    | .ok t =>
      let u := t.setGpr 1 (t.gpr 1 - 1)
      if stop u then (u, none) else repLoop body stop k u

/-- The end of a repeated instruction: complete, or deliver the fault on the state the completed iterations
left (R381, R511). -/
def finishRep (r : State × Option Fault) : State :=
  match r.2 with
  | none => r.1.complete
  | some f => r.1.deliver f

/-- A string instruction: its body once, or the loop of R381 counted by ECX. -/
def stringOp (body : State → Except Fault State) (stop : State → Bool) (s : State) :
    Host.Outcome State Fault Refusal :=
  if s.rep = .none then finish s ((body s).map State.complete)
  else .next (finishRep (repLoop body stop (s.gpr 1).toNat s))

/-! ### The instructions -/

/-- MOVSB (A4; R382). -/
def execMovsb (s : State) : Host.Outcome State Fault Refusal :=
  stringOp (movsBody 8) neverStop s

/-- MOVSD (A5; R382). -/
def execMovsd (s : State) : Host.Outcome State Fault Refusal :=
  stringOp (movsBody 32) neverStop s

/-- STOSB (AA; R383). -/
def execStosb (s : State) : Host.Outcome State Fault Refusal :=
  stringOp (stosBody acc8) neverStop s

/-- STOSD (AB; R383). -/
def execStosd (s : State) : Host.Outcome State Fault Refusal :=
  stringOp (stosBody acc32) neverStop s

/-- LODSB (AC; R384). -/
def execLodsb (s : State) : Host.Outcome State Fault Refusal :=
  stringOp (lodsBody acc8) neverStop s

/-- LODSD (AD; R384). -/
def execLodsd (s : State) : Host.Outcome State Fault Refusal :=
  stringOp (lodsBody acc32) neverStop s

/-- SCASB (AE; R385). -/
def execScasb (s : State) : Host.Outcome State Fault Refusal :=
  stringOp (scasBody acc8) stopOnFlag s

/-- SCASD (AF; R385). -/
def execScasd (s : State) : Host.Outcome State Fault Refusal :=
  stringOp (scasBody acc32) stopOnFlag s

/-- CMPSB (A6; R386). -/
def execCmpsb (s : State) : Host.Outcome State Fault Refusal :=
  stringOp (cmpsBody 8) stopOnFlag s

/-- CMPSD (A7; R386). -/
def execCmpsd (s : State) : Host.Outcome State Fault Refusal :=
  stringOp (cmpsBody 32) stopOnFlag s

end Sys2Proof.Machine
end

