-- ==== Sys2Proof/Machine/X87Load.lean ====
section
/-! DEFINITION. x87 loads, stores and stack control (spec/46_x87_load_store.md R400 to R422). -/

namespace Sys2Proof.Machine

/-- A value read by an x87 memory form, and the state after the draw a NaN conversion makes (R402, R405). -/
abbrev X87Source := State → Except Fault (State × F64)

/-- m32fp (R401, R402). -/
def srcM32fp : X87Source := fun s => do
  let v ← s.memRead 32 s.memAddr
  return settle s (cvtF32ToF64 v)

/-- m64fp: the pattern as it is (R402). -/
def srcM64fp : X87Source := fun s => do
  let v ← s.memRead 64 s.memAddr
  return (s, v)

/-- m80fp (R404). -/
def srcM80fp : X87Source := fun s => do
  let v ← s.memRead 80 s.memAddr
  return settle s (f80Load s.config.f80 v)

/-- A signed integer of `w` bits (R402, R406). -/
def srcInt (w : Nat) : X87Source := fun s => do
  let v ← s.memRead w s.memAddr
  return (s, cvtIntToF64 v.toInt)

/-- A memory load: read, then push (R405, R406). -/
def fldMem (src : X87Source) (s : State) : Except Fault State := do
  let p ← src s
  return (p.1.fpush p.2).complete

/-- A memory store of ST(0) as `v`, with no pop (R408, R411). -/
def fstMem {w : Nat} (v : BitVec w) (s : State) : Except Fault State := do
  let t ← s.memWrite s.memAddr v
  return t.complete

/-- A memory store of ST(0) as `v`, then a pop (R409, R412). -/
def fstpMem {w : Nat} (v : BitVec w) (s : State) : Except Fault State := do
  let t ← s.memWrite s.memAddr v
  return t.fpop.complete

/-- `fpu_stack[phys(i)] <- ST(0); tag(phys(i)) <- VALID` (R408). -/
def copySt0 (i : Reg) (s : State) : State := (s.setSt i (s.st 0)).setTag (s.phys i) tagValid

/-- The two slots and their tags change places (R413). -/
def exchange (i : Reg) (s : State) : State :=
  let t := (s.setSt 0 (s.st i)).setSt i (s.st 0)
  (t.setTag (s.phys 0) (s.tag (s.phys i))).setTag (s.phys i) (s.tag (s.phys 0))

/-- The words of R417; the slots are kept. -/
def initFpu (s : State) : State :=
  { s with fpuControl := 0x037F, fpuStatus := 0, fpuTag := 0xFFFF, fpuTop := 0 }

/-- `fpu_control <- MemRead(LinearAddr(rm), 2)` (R419). -/
def loadControl (s : State) : Except Fault State := do
  let v ← s.memRead 16 s.memAddr
  return { s with fpuControl := v }.complete

/-! ### The instructions -/

/-- FLD m32fp (D9 /0; R405). -/
def execFldM32fp (s : State) : Host.Outcome State Fault Refusal :=
  finish s (fldMem srcM32fp s)

/-- FLD m64fp (DD /0; R405). -/
def execFldM64fp (s : State) : Host.Outcome State Fault Refusal :=
  finish s (fldMem srcM64fp s)

/-- FLD m80fp (DB /5; R405). -/
def execFldM80fp (s : State) : Host.Outcome State Fault Refusal :=
  finish s (fldMem srcM80fp s)

/-- FLD ST(i) (D9 C0+i; R405). -/
def execFldSti (s : State) : Host.Outcome State Fault Refusal :=
  .next (s.fpush (s.st s.stIndex)).complete

/-- FILD m16int (DF /0; R406). -/
def execFildM16int (s : State) : Host.Outcome State Fault Refusal :=
  finish s (fldMem (srcInt 16) s)

/-- FILD m32int (DB /0; R406). -/
def execFildM32int (s : State) : Host.Outcome State Fault Refusal :=
  finish s (fldMem (srcInt 32) s)

/-- FILD m64int (DF /5; R406). -/
def execFildM64int (s : State) : Host.Outcome State Fault Refusal :=
  finish s (fldMem (srcInt 64) s)

/-- FLD1 (D9 E8; R407). -/
def execFld1 (s : State) : Host.Outcome State Fault Refusal :=
  .next (s.fpush 0x3FF0000000000000#64).complete

/-- FLDL2T (D9 E9; R407). -/
def execFldl2t (s : State) : Host.Outcome State Fault Refusal :=
  .next (s.fpush 0x400A934F0979A371#64).complete

/-- FLDL2E (D9 EA; R407). -/
def execFldl2e (s : State) : Host.Outcome State Fault Refusal :=
  .next (s.fpush 0x3FF71547652B82FE#64).complete

/-- FLDPI (D9 EB; R407). -/
def execFldpi (s : State) : Host.Outcome State Fault Refusal :=
  .next (s.fpush 0x400921FB54442D18#64).complete

/-- FLDLG2 (D9 EC; R407). -/
def execFldlg2 (s : State) : Host.Outcome State Fault Refusal :=
  .next (s.fpush 0x3FD34413509F79FF#64).complete

/-- FLDLN2 (D9 ED; R407). -/
def execFldln2 (s : State) : Host.Outcome State Fault Refusal :=
  .next (s.fpush 0x3FE62E42FEFA39EF#64).complete

/-- FLDZ (D9 EE; R407). -/
def execFldz (s : State) : Host.Outcome State Fault Refusal :=
  .next (s.fpush 0x0000000000000000#64).complete

/-- FST m32fp (D9 /2; R408). -/
def execFstM32fp (s : State) : Host.Outcome State Fault Refusal :=
  finish s (fstMem (cvtF64ToF32 (s.st 0)) s)

/-- FST m64fp (DD /2; R408). -/
def execFstM64fp (s : State) : Host.Outcome State Fault Refusal :=
  finish s (fstMem (s.st 0) s)

/-- FST ST(i) (DD D0+i; R408). -/
def execFstSti (s : State) : Host.Outcome State Fault Refusal :=
  .next (copySt0 s.stIndex s).complete

/-- FSTP m32fp (D9 /3; R409). -/
def execFstpM32fp (s : State) : Host.Outcome State Fault Refusal :=
  finish s (fstpMem (cvtF64ToF32 (s.st 0)) s)

/-- FSTP m64fp (DD /3; R409). -/
def execFstpM64fp (s : State) : Host.Outcome State Fault Refusal :=
  finish s (fstpMem (s.st 0) s)

/-- FSTP m80fp (DB /7; R409). -/
def execFstpM80fp (s : State) : Host.Outcome State Fault Refusal :=
  finish s (fstpMem (f80Store s.config.f80 (s.st 0)) s)

/-- FSTP ST(i) (DD D8+i; R409). -/
def execFstpSti (s : State) : Host.Outcome State Fault Refusal :=
  .next (copySt0 s.stIndex s).fpop.complete

/-- FIST m16int (DF /2; R411). -/
def execFistM16int (s : State) : Host.Outcome State Fault Refusal :=
  finish s (fstMem (intConv s.config.fistOverflow16 (s.st 0)) s)

/-- FIST m32int (DB /2; R411). -/
def execFistM32int (s : State) : Host.Outcome State Fault Refusal :=
  finish s (fstMem (intConv s.config.fistOverflow32 (s.st 0)) s)

/-- FISTP m16int (DF /3; R412). -/
def execFistpM16int (s : State) : Host.Outcome State Fault Refusal :=
  finish s (fstpMem (intConv s.config.fistOverflow16 (s.st 0)) s)

/-- FISTP m32int (DB /3; R412). -/
def execFistpM32int (s : State) : Host.Outcome State Fault Refusal :=
  finish s (fstpMem (intConv s.config.fistOverflow32 (s.st 0)) s)

/-- FISTP m64int (DF /7; R412). -/
def execFistpM64int (s : State) : Host.Outcome State Fault Refusal :=
  finish s (fstpMem (intConv s.config.fistOverflow64 (s.st 0)) s)

/-- FXCH ST(i) (D9 C8+i; R413). -/
def execFxchSti (s : State) : Host.Outcome State Fault Refusal :=
  .next (exchange s.stIndex s).complete

/-- FFREE ST(i) (DD C0+i; R414). -/
def execFfreeSti (s : State) : Host.Outcome State Fault Refusal :=
  .next (s.setTag (s.phys s.stIndex) tagEmpty).complete

/-- FINCSTP (D9 F7; R415). -/
def execFincstp (s : State) : Host.Outcome State Fault Refusal :=
  .next (s.setTop (s.fpuTop + 1)).complete

/-- FDECSTP (D9 F6; R416). -/
def execFdecstp (s : State) : Host.Outcome State Fault Refusal :=
  .next (s.setTop (s.fpuTop - 1)).complete

/-- FNINIT (DB E3; R417). -/
def execFninit (s : State) : Host.Outcome State Fault Refusal :=
  .next (initFpu s).complete

/-- FNCLEX (DB E2; R418). -/
def execFnclex (s : State) : Host.Outcome State Fault Refusal :=
  .next { s with fpuStatus := s.fpuStatus &&& 0x7F00 }.complete

/-- FLDCW m16 (D9 /5; R419). -/
def execFldcwM16 (s : State) : Host.Outcome State Fault Refusal :=
  finish s (loadControl s)

/-- FNSTCW m16 (D9 /7; R420). -/
def execFnstcwM16 (s : State) : Host.Outcome State Fault Refusal :=
  finish s (fstMem s.fpuControl s)

/-- FNSTSW m16 (DD /7; R421). -/
def execFnstswM16 (s : State) : Host.Outcome State Fault Refusal :=
  finish s (fstMem s.fpuStatus s)

/-- FNSTSW AX (DF E0; R421). -/
def execFnstswAx (s : State) : Host.Outcome State Fault Refusal :=
  .next (s.setR16 0 s.fpuStatus).complete

/-- FNOP (D9 D0; R422). -/
def execFnop (s : State) : Host.Outcome State Fault Refusal :=
  .next s.complete

end Sys2Proof.Machine
end

