-- ==== Sys2Proof/Machine/X87Arith.lean ====
section
/-! DEFINITION. x87 arithmetic, compares and conditional moves (spec/47_x87_arith_compare.md R450 to R490). -/

namespace Sys2Proof.Machine

/-- The six operations of R450. -/
inductive FpOp where
  | add
  | mul
  | sub
  | subr
  | div
  | divr
  deriving DecidableEq, Repr

/-- `Apply(op, d, src)` (R450); `none` is a NaN. -/
def applyFp (op : FpOp) (d src : F64) : Option F64 :=
  match op with
  | .add => fadd d src
  | .mul => fmul d src
  | .sub => fsub d src
  | .subr => fsub src d
  | .div => fdiv d src
  | .divr => fdiv src d

/-- `ST(i) <- v`, a NaN being drawn; the tag is kept (R450). -/
def putResult (s : State) (i : Reg) (r : Option F64) : State :=
  let p := settle s r
  p.1.setSt i p.2

/-- A memory form: `ST(0) <- Apply(op, ST(0), source)` (R450). -/
def fpMem (op : FpOp) (src : X87Source) (s : State) : Except Fault State := do
  let p ← src s
  return (putResult p.1 0 (applyFp op (p.1.st 0) p.2)).complete

/-- A D8 register form: `ST(0) <- Apply(op, ST(0), ST(i))` (R450). -/
def fpToSt0 (op : FpOp) (s : State) : State := putResult s 0 (applyFp op (s.st 0) (s.st s.stIndex))

/-- A DC or DE register form before any pop: `ST(i) <- Apply(op, ST(i), ST(0))` (R450). -/
def fpToSti (op : FpOp) (s : State) : State :=
  putResult s s.stIndex (applyFp op (s.st s.stIndex) (s.st 0))

/-- `SetCC(a, b)` (R475): C3 is bit 14, C2 bit 10, C0 bit 8; C1, bit 9, becomes 0. -/
def setCc (s : State) (a b : F64) : State :=
  let put (c3 c2 c0 : Bool) : State :=
    { s with fpuStatus := setBit (setBit (setBit (setBit s.fpuStatus 14 c3) 10 c2) 9 false) 8 c0 }
  match fcompare a b with
  | .gt => put false false false
  | .lt => put false false true
  | .eq => put true false false
  | .un => put true true true

/-- `SetEFL(a, b)` (R485). -/
def setEfl (s : State) (a b : F64) : State :=
  let put (zf cf : Bool) : State := ((s.setZf zf).setCf cf).setOf false
  match fcompare a b with
  | .gt => put false false
  | .lt => put false true
  | .eq => put true false
  | .un => put true true

/-- A memory compare, with no pop (R476, R482). -/
def fcomMem (src : X87Source) (s : State) : Except Fault State := do
  let p ← src s
  return (setCc p.1 (p.1.st 0) p.2).complete

/-- A memory compare, then a pop (R477, R483). -/
def fcompMem (src : X87Source) (s : State) : Except Fault State := do
  let p ← src s
  return (setCc p.1 (p.1.st 0) p.2).fpop.complete

/-- A compare of ST(0) with ST(i), before any pop (R476 to R481). -/
def fcomReg (i : Reg) (s : State) : State := setCc s (s.st 0) (s.st i)

/-- A compare of ST(0) with ST(i) into the flags, before any pop (R486 to R489). -/
def fcomiReg (i : Reg) (s : State) : State := setEfl s (s.st 0) (s.st i)

/-- FCMOVcc (R490): the tag of ST(0) is kept. -/
def fcmovIf (c : Cond) (s : State) : State := if c.holds s then s.setSt 0 (s.st s.stIndex) else s

/-! ### The instructions -/

/-- FADD m32fp (D8 /0; R451). -/
def execFaddM32fp (s : State) : Host.Outcome State Fault Refusal :=
  finish s (fpMem .add srcM32fp s)

/-- FADD m64fp (DC /0; R451). -/
def execFaddM64fp (s : State) : Host.Outcome State Fault Refusal :=
  finish s (fpMem .add srcM64fp s)

/-- FIADD m32int (DA /0; R453). -/
def execFiaddM32int (s : State) : Host.Outcome State Fault Refusal :=
  finish s (fpMem .add (srcInt 32) s)

/-- FIADD m16int (DE /0; R453). -/
def execFiaddM16int (s : State) : Host.Outcome State Fault Refusal :=
  finish s (fpMem .add (srcInt 16) s)

/-- FADD ST(0), ST(i) (D8 C0+i; R451). -/
def execFaddSt0Sti (s : State) : Host.Outcome State Fault Refusal :=
  .next (fpToSt0 .add s).complete

/-- FADD ST(i), ST(0) (DC C0+i; R451). -/
def execFaddStiSt0 (s : State) : Host.Outcome State Fault Refusal :=
  .next (fpToSti .add s).complete

/-- FADDP ST(i), ST(0) (DE C0+i; R452). -/
def execFaddpStiSt0 (s : State) : Host.Outcome State Fault Refusal :=
  .next (fpToSti .add s).fpop.complete

/-- FMUL m32fp (D8 /1; R454). -/
def execFmulM32fp (s : State) : Host.Outcome State Fault Refusal :=
  finish s (fpMem .mul srcM32fp s)

/-- FMUL m64fp (DC /1; R454). -/
def execFmulM64fp (s : State) : Host.Outcome State Fault Refusal :=
  finish s (fpMem .mul srcM64fp s)

/-- FIMUL m32int (DA /1; R456). -/
def execFimulM32int (s : State) : Host.Outcome State Fault Refusal :=
  finish s (fpMem .mul (srcInt 32) s)

/-- FIMUL m16int (DE /1; R456). -/
def execFimulM16int (s : State) : Host.Outcome State Fault Refusal :=
  finish s (fpMem .mul (srcInt 16) s)

/-- FMUL ST(0), ST(i) (D8 C8+i; R454). -/
def execFmulSt0Sti (s : State) : Host.Outcome State Fault Refusal :=
  .next (fpToSt0 .mul s).complete

/-- FMUL ST(i), ST(0) (DC C8+i; R454). -/
def execFmulStiSt0 (s : State) : Host.Outcome State Fault Refusal :=
  .next (fpToSti .mul s).complete

/-- FMULP ST(i), ST(0) (DE C8+i; R455). -/
def execFmulpStiSt0 (s : State) : Host.Outcome State Fault Refusal :=
  .next (fpToSti .mul s).fpop.complete

/-- FSUB m32fp (D8 /4; R457). -/
def execFsubM32fp (s : State) : Host.Outcome State Fault Refusal :=
  finish s (fpMem .sub srcM32fp s)

/-- FSUB m64fp (DC /4; R457). -/
def execFsubM64fp (s : State) : Host.Outcome State Fault Refusal :=
  finish s (fpMem .sub srcM64fp s)

/-- FISUB m32int (DA /4; R459). -/
def execFisubM32int (s : State) : Host.Outcome State Fault Refusal :=
  finish s (fpMem .sub (srcInt 32) s)

/-- FISUB m16int (DE /4; R459). -/
def execFisubM16int (s : State) : Host.Outcome State Fault Refusal :=
  finish s (fpMem .sub (srcInt 16) s)

/-- FSUB ST(0), ST(i) (D8 E0+i; R457). -/
def execFsubSt0Sti (s : State) : Host.Outcome State Fault Refusal :=
  .next (fpToSt0 .sub s).complete

/-- FSUB ST(i), ST(0) (DC E8+i; R457). -/
def execFsubStiSt0 (s : State) : Host.Outcome State Fault Refusal :=
  .next (fpToSti .sub s).complete

/-- FSUBP ST(i), ST(0) (DE E8+i; R458). -/
def execFsubpStiSt0 (s : State) : Host.Outcome State Fault Refusal :=
  .next (fpToSti .sub s).fpop.complete

/-- FSUBR m32fp (D8 /5; R460). -/
def execFsubrM32fp (s : State) : Host.Outcome State Fault Refusal :=
  finish s (fpMem .subr srcM32fp s)

/-- FSUBR m64fp (DC /5; R460). -/
def execFsubrM64fp (s : State) : Host.Outcome State Fault Refusal :=
  finish s (fpMem .subr srcM64fp s)

/-- FISUBR m32int (DA /5; R462). -/
def execFisubrM32int (s : State) : Host.Outcome State Fault Refusal :=
  finish s (fpMem .subr (srcInt 32) s)

/-- FISUBR m16int (DE /5; R462). -/
def execFisubrM16int (s : State) : Host.Outcome State Fault Refusal :=
  finish s (fpMem .subr (srcInt 16) s)

/-- FSUBR ST(0), ST(i) (D8 E8+i; R460). -/
def execFsubrSt0Sti (s : State) : Host.Outcome State Fault Refusal :=
  .next (fpToSt0 .subr s).complete

/-- FSUBR ST(i), ST(0) (DC E0+i; R460). -/
def execFsubrStiSt0 (s : State) : Host.Outcome State Fault Refusal :=
  .next (fpToSti .subr s).complete

/-- FSUBRP ST(i), ST(0) (DE E0+i; R461). -/
def execFsubrpStiSt0 (s : State) : Host.Outcome State Fault Refusal :=
  .next (fpToSti .subr s).fpop.complete

/-- FDIV m32fp (D8 /6; R463). -/
def execFdivM32fp (s : State) : Host.Outcome State Fault Refusal :=
  finish s (fpMem .div srcM32fp s)

/-- FDIV m64fp (DC /6; R463). -/
def execFdivM64fp (s : State) : Host.Outcome State Fault Refusal :=
  finish s (fpMem .div srcM64fp s)

/-- FIDIV m32int (DA /6; R465). -/
def execFidivM32int (s : State) : Host.Outcome State Fault Refusal :=
  finish s (fpMem .div (srcInt 32) s)

/-- FIDIV m16int (DE /6; R465). -/
def execFidivM16int (s : State) : Host.Outcome State Fault Refusal :=
  finish s (fpMem .div (srcInt 16) s)

/-- FDIV ST(0), ST(i) (D8 F0+i; R463). -/
def execFdivSt0Sti (s : State) : Host.Outcome State Fault Refusal :=
  .next (fpToSt0 .div s).complete

/-- FDIV ST(i), ST(0) (DC F8+i; R463). -/
def execFdivStiSt0 (s : State) : Host.Outcome State Fault Refusal :=
  .next (fpToSti .div s).complete

/-- FDIVP ST(i), ST(0) (DE F8+i; R464). -/
def execFdivpStiSt0 (s : State) : Host.Outcome State Fault Refusal :=
  .next (fpToSti .div s).fpop.complete

/-- FDIVR m32fp (D8 /7; R466). -/
def execFdivrM32fp (s : State) : Host.Outcome State Fault Refusal :=
  finish s (fpMem .divr srcM32fp s)

/-- FDIVR m64fp (DC /7; R466). -/
def execFdivrM64fp (s : State) : Host.Outcome State Fault Refusal :=
  finish s (fpMem .divr srcM64fp s)

/-- FIDIVR m32int (DA /7; R468). -/
def execFidivrM32int (s : State) : Host.Outcome State Fault Refusal :=
  finish s (fpMem .divr (srcInt 32) s)

/-- FIDIVR m16int (DE /7; R468). -/
def execFidivrM16int (s : State) : Host.Outcome State Fault Refusal :=
  finish s (fpMem .divr (srcInt 16) s)

/-- FDIVR ST(0), ST(i) (D8 F8+i; R466). -/
def execFdivrSt0Sti (s : State) : Host.Outcome State Fault Refusal :=
  .next (fpToSt0 .divr s).complete

/-- FDIVR ST(i), ST(0) (DC F0+i; R466). -/
def execFdivrStiSt0 (s : State) : Host.Outcome State Fault Refusal :=
  .next (fpToSti .divr s).complete

/-- FDIVRP ST(i), ST(0) (DE F0+i; R467). -/
def execFdivrpStiSt0 (s : State) : Host.Outcome State Fault Refusal :=
  .next (fpToSti .divr s).fpop.complete

/-- FCHS (D9 E0; R469). -/
def execFchs (s : State) : Host.Outcome State Fault Refusal :=
  .next (s.setSt 0 (negate (s.st 0))).complete

/-- FABS (D9 E1; R470). -/
def execFabs (s : State) : Host.Outcome State Fault Refusal :=
  .next (s.setSt 0 (s.st 0 &&& 0x7FFFFFFFFFFFFFFF#64)).complete

/-- FSQRT (D9 FA; R471). -/
def execFsqrt (s : State) : Host.Outcome State Fault Refusal :=
  .next (putResult s 0 (Sys2Proof.Machine.fsqrt (s.st 0))).complete

/-- FCOM m32fp (D8 /2; R476). -/
def execFcomM32fp (s : State) : Host.Outcome State Fault Refusal :=
  finish s (fcomMem srcM32fp s)

/-- FCOMP m32fp (D8 /3; R477). -/
def execFcompM32fp (s : State) : Host.Outcome State Fault Refusal :=
  finish s (fcompMem srcM32fp s)

/-- FCOM m64fp (DC /2; R476). -/
def execFcomM64fp (s : State) : Host.Outcome State Fault Refusal :=
  finish s (fcomMem srcM64fp s)

/-- FCOMP m64fp (DC /3; R477). -/
def execFcompM64fp (s : State) : Host.Outcome State Fault Refusal :=
  finish s (fcompMem srcM64fp s)

/-- FICOM m32int (DA /2; R482). -/
def execFicomM32int (s : State) : Host.Outcome State Fault Refusal :=
  finish s (fcomMem (srcInt 32) s)

/-- FICOMP m32int (DA /3; R483). -/
def execFicompM32int (s : State) : Host.Outcome State Fault Refusal :=
  finish s (fcompMem (srcInt 32) s)

/-- FICOM m16int (DE /2; R482). -/
def execFicomM16int (s : State) : Host.Outcome State Fault Refusal :=
  finish s (fcomMem (srcInt 16) s)

/-- FICOMP m16int (DE /3; R483). -/
def execFicompM16int (s : State) : Host.Outcome State Fault Refusal :=
  finish s (fcompMem (srcInt 16) s)

/-- FCOM ST(i) (D8 D0+i; R476). -/
def execFcomSti (s : State) : Host.Outcome State Fault Refusal :=
  .next (fcomReg s.stIndex s).complete

/-- FCOMP ST(i) (D8 D8+i; R477). -/
def execFcompSti (s : State) : Host.Outcome State Fault Refusal :=
  .next (fcomReg s.stIndex s).fpop.complete

/-- FCOMPP (DE D9; R478). -/
def execFcompp (s : State) : Host.Outcome State Fault Refusal :=
  .next (fcomReg 1 s).fpop.fpop.complete

/-- FUCOM ST(i) (DD E0+i; R479). -/
def execFucomSti (s : State) : Host.Outcome State Fault Refusal :=
  .next (fcomReg s.stIndex s).complete

/-- FUCOMP ST(i) (DD E8+i; R480). -/
def execFucompSti (s : State) : Host.Outcome State Fault Refusal :=
  .next (fcomReg s.stIndex s).fpop.complete

/-- FUCOMPP (DA E9; R481). -/
def execFucompp (s : State) : Host.Outcome State Fault Refusal :=
  .next (fcomReg 1 s).fpop.fpop.complete

/-- FTST (D9 E4; R484). -/
def execFtst (s : State) : Host.Outcome State Fault Refusal :=
  .next (setCc s (s.st 0) 0).complete

/-- FCOMI ST(0), ST(i) (DB F0+i; R486). -/
def execFcomiSt0Sti (s : State) : Host.Outcome State Fault Refusal :=
  .next (fcomiReg s.stIndex s).complete

/-- FCOMIP ST(0), ST(i) (DF F0+i; R487). -/
def execFcomipSt0Sti (s : State) : Host.Outcome State Fault Refusal :=
  .next (fcomiReg s.stIndex s).fpop.complete

/-- FUCOMI ST(0), ST(i) (DB E8+i; R488). -/
def execFucomiSt0Sti (s : State) : Host.Outcome State Fault Refusal :=
  .next (fcomiReg s.stIndex s).complete

/-- FUCOMIP ST(0), ST(i) (DF E8+i; R489). -/
def execFucomipSt0Sti (s : State) : Host.Outcome State Fault Refusal :=
  .next (fcomiReg s.stIndex s).fpop.complete

/-- FCMOVB ST(0), ST(i) (DA C0+i; R490). -/
def execFcmovbSt0Sti (s : State) : Host.Outcome State Fault Refusal :=
  .next (fcmovIf .b s).complete

/-- FCMOVE ST(0), ST(i) (DA C8+i; R490). -/
def execFcmoveSt0Sti (s : State) : Host.Outcome State Fault Refusal :=
  .next (fcmovIf .e s).complete

/-- FCMOVBE ST(0), ST(i) (DA D0+i; R490). -/
def execFcmovbeSt0Sti (s : State) : Host.Outcome State Fault Refusal :=
  .next (fcmovIf .be s).complete

/-- FCMOVNB ST(0), ST(i) (DB C0+i; R490). -/
def execFcmovnbSt0Sti (s : State) : Host.Outcome State Fault Refusal :=
  .next (fcmovIf .ae s).complete

/-- FCMOVNE ST(0), ST(i) (DB C8+i; R490). -/
def execFcmovneSt0Sti (s : State) : Host.Outcome State Fault Refusal :=
  .next (fcmovIf .ne s).complete

/-- FCMOVNBE ST(0), ST(i) (DB D0+i; R490). -/
def execFcmovnbeSt0Sti (s : State) : Host.Outcome State Fault Refusal :=
  .next (fcmovIf .a s).complete

/-- FCMOVU ST(0), ST(i) (DA D8+i; R341). -/
def execFcmovuSt0Sti (s : State) : Host.Outcome State Fault Refusal :=
  finish s (parityFault (.one 0xDA) s)

/-- FCMOVNU ST(0), ST(i) (DB D8+i; R341). -/
def execFcmovnuSt0Sti (s : State) : Host.Outcome State Fault Refusal :=
  finish s (parityFault (.one 0xDB) s)

end Sys2Proof.Machine
end

