-- ==== Sys2Proof/Machine/Dispatch.lean ====
section
/-! DEFINITION. One arm per row of spec/opcode_table.json, each a direct call of its meaning. The operands are the
fields `ops` of the state (log 6), `s.eip` is the address of the instruction's first byte and `s.next` the address
after it (R150). -/

namespace Sys2Proof.Machine

/-- The rule of an instruction (R560: `Execute`), with the delivery of its fault. -/
def exec (i : Instr) (s : State) : Host.Outcome State Fault Refusal :=
  match i with
  | .addRm8R8 => Sys2Proof.Machine.execAddRm8R8 s
  | .addRm32R32 => Sys2Proof.Machine.execAddRm32R32 s
  | .addR8Rm8 => Sys2Proof.Machine.execAddR8Rm8 s
  | .addR32Rm32 => Sys2Proof.Machine.execAddR32Rm32 s
  | .addAlIb => Sys2Proof.Machine.execAddAlIb s
  | .addEaxId => Sys2Proof.Machine.execAddEaxId s
  | .orRm8R8 => Sys2Proof.Machine.execOrRm8R8 s
  | .orRm32R32 => Sys2Proof.Machine.execOrRm32R32 s
  | .orR8Rm8 => Sys2Proof.Machine.execOrR8Rm8 s
  | .orR32Rm32 => Sys2Proof.Machine.execOrR32Rm32 s
  | .orAlIb => Sys2Proof.Machine.execOrAlIb s
  | .orEaxId => Sys2Proof.Machine.execOrEaxId s
  | .adcRm8R8 => Sys2Proof.Machine.execAdcRm8R8 s
  | .adcRm32R32 => Sys2Proof.Machine.execAdcRm32R32 s
  | .adcR8Rm8 => Sys2Proof.Machine.execAdcR8Rm8 s
  | .adcR32Rm32 => Sys2Proof.Machine.execAdcR32Rm32 s
  | .adcAlIb => Sys2Proof.Machine.execAdcAlIb s
  | .adcEaxId => Sys2Proof.Machine.execAdcEaxId s
  | .sbbRm8R8 => Sys2Proof.Machine.execSbbRm8R8 s
  | .sbbRm32R32 => Sys2Proof.Machine.execSbbRm32R32 s
  | .sbbR8Rm8 => Sys2Proof.Machine.execSbbR8Rm8 s
  | .sbbR32Rm32 => Sys2Proof.Machine.execSbbR32Rm32 s
  | .sbbAlIb => Sys2Proof.Machine.execSbbAlIb s
  | .sbbEaxId => Sys2Proof.Machine.execSbbEaxId s
  | .andRm8R8 => Sys2Proof.Machine.execAndRm8R8 s
  | .andRm32R32 => Sys2Proof.Machine.execAndRm32R32 s
  | .andR8Rm8 => Sys2Proof.Machine.execAndR8Rm8 s
  | .andR32Rm32 => Sys2Proof.Machine.execAndR32Rm32 s
  | .andAlIb => Sys2Proof.Machine.execAndAlIb s
  | .andEaxId => Sys2Proof.Machine.execAndEaxId s
  | .subRm8R8 => Sys2Proof.Machine.execSubRm8R8 s
  | .subRm32R32 => Sys2Proof.Machine.execSubRm32R32 s
  | .subR8Rm8 => Sys2Proof.Machine.execSubR8Rm8 s
  | .subR32Rm32 => Sys2Proof.Machine.execSubR32Rm32 s
  | .subAlIb => Sys2Proof.Machine.execSubAlIb s
  | .subEaxId => Sys2Proof.Machine.execSubEaxId s
  | .xorRm8R8 => Sys2Proof.Machine.execXorRm8R8 s
  | .xorRm32R32 => Sys2Proof.Machine.execXorRm32R32 s
  | .xorR8Rm8 => Sys2Proof.Machine.execXorR8Rm8 s
  | .xorR32Rm32 => Sys2Proof.Machine.execXorR32Rm32 s
  | .xorAlIb => Sys2Proof.Machine.execXorAlIb s
  | .xorEaxId => Sys2Proof.Machine.execXorEaxId s
  | .cmpRm8R8 => Sys2Proof.Machine.execCmpRm8R8 s
  | .cmpRm32R32 => Sys2Proof.Machine.execCmpRm32R32 s
  | .cmpR8Rm8 => Sys2Proof.Machine.execCmpR8Rm8 s
  | .cmpR32Rm32 => Sys2Proof.Machine.execCmpR32Rm32 s
  | .cmpAlIb => Sys2Proof.Machine.execCmpAlIb s
  | .cmpEaxId => Sys2Proof.Machine.execCmpEaxId s
  | .incR32 => Sys2Proof.Machine.execIncR32 s
  | .decR32 => Sys2Proof.Machine.execDecR32 s
  | .pushR32 => Sys2Proof.Machine.execPushR32 s
  | .popR32 => Sys2Proof.Machine.execPopR32 s
  | .pushad => Sys2Proof.Machine.execPushad s
  | .popad => Sys2Proof.Machine.execPopad s
  | .pushId => Sys2Proof.Machine.execPushId s
  | .imulR32Rm32Id => Sys2Proof.Machine.execImulR32Rm32Id s
  | .pushIb => Sys2Proof.Machine.execPushIb s
  | .imulR32Rm32Ib => Sys2Proof.Machine.execImulR32Rm32Ib s
  | .joRel8 => Sys2Proof.Machine.execJoRel8 s
  | .jnoRel8 => Sys2Proof.Machine.execJnoRel8 s
  | .jbRel8 => Sys2Proof.Machine.execJbRel8 s
  | .jaeRel8 => Sys2Proof.Machine.execJaeRel8 s
  | .jeRel8 => Sys2Proof.Machine.execJeRel8 s
  | .jneRel8 => Sys2Proof.Machine.execJneRel8 s
  | .jbeRel8 => Sys2Proof.Machine.execJbeRel8 s
  | .jaRel8 => Sys2Proof.Machine.execJaRel8 s
  | .jsRel8 => Sys2Proof.Machine.execJsRel8 s
  | .jnsRel8 => Sys2Proof.Machine.execJnsRel8 s
  | .jpRel8 => Sys2Proof.Machine.execJpRel8 s
  | .jnpRel8 => Sys2Proof.Machine.execJnpRel8 s
  | .jlRel8 => Sys2Proof.Machine.execJlRel8 s
  | .jgeRel8 => Sys2Proof.Machine.execJgeRel8 s
  | .jleRel8 => Sys2Proof.Machine.execJleRel8 s
  | .jgRel8 => Sys2Proof.Machine.execJgRel8 s
  | .addRm8Ib => Sys2Proof.Machine.execAddRm8Ib s
  | .addRm32Id => Sys2Proof.Machine.execAddRm32Id s
  | .addRm32Ib => Sys2Proof.Machine.execAddRm32Ib s
  | .orRm8Ib => Sys2Proof.Machine.execOrRm8Ib s
  | .orRm32Id => Sys2Proof.Machine.execOrRm32Id s
  | .orRm32Ib => Sys2Proof.Machine.execOrRm32Ib s
  | .adcRm8Ib => Sys2Proof.Machine.execAdcRm8Ib s
  | .adcRm32Id => Sys2Proof.Machine.execAdcRm32Id s
  | .adcRm32Ib => Sys2Proof.Machine.execAdcRm32Ib s
  | .sbbRm8Ib => Sys2Proof.Machine.execSbbRm8Ib s
  | .sbbRm32Id => Sys2Proof.Machine.execSbbRm32Id s
  | .sbbRm32Ib => Sys2Proof.Machine.execSbbRm32Ib s
  | .andRm8Ib => Sys2Proof.Machine.execAndRm8Ib s
  | .andRm32Id => Sys2Proof.Machine.execAndRm32Id s
  | .andRm32Ib => Sys2Proof.Machine.execAndRm32Ib s
  | .subRm8Ib => Sys2Proof.Machine.execSubRm8Ib s
  | .subRm32Id => Sys2Proof.Machine.execSubRm32Id s
  | .subRm32Ib => Sys2Proof.Machine.execSubRm32Ib s
  | .xorRm8Ib => Sys2Proof.Machine.execXorRm8Ib s
  | .xorRm32Id => Sys2Proof.Machine.execXorRm32Id s
  | .xorRm32Ib => Sys2Proof.Machine.execXorRm32Ib s
  | .cmpRm8Ib => Sys2Proof.Machine.execCmpRm8Ib s
  | .cmpRm32Id => Sys2Proof.Machine.execCmpRm32Id s
  | .cmpRm32Ib => Sys2Proof.Machine.execCmpRm32Ib s
  | .testRm8R8 => Sys2Proof.Machine.execTestRm8R8 s
  | .testRm32R32 => Sys2Proof.Machine.execTestRm32R32 s
  | .movRm8R8 => Sys2Proof.Machine.execMovRm8R8 s
  | .movRm32R32 => Sys2Proof.Machine.execMovRm32R32 s
  | .movR8Rm8 => Sys2Proof.Machine.execMovR8Rm8 s
  | .movR32Rm32 => Sys2Proof.Machine.execMovR32Rm32 s
  | .leaR32M => Sys2Proof.Machine.execLeaR32M s
  | .popRm32 => Sys2Proof.Machine.execPopRm32 s
  | .nop => Sys2Proof.Machine.execNop s
  | .cwde => Sys2Proof.Machine.execCwde s
  | .cdq => Sys2Proof.Machine.execCdq s
  | .wait => Sys2Proof.Machine.execWait s
  | .movAlMoffs8 => Sys2Proof.Machine.execMovAlMoffs8 s
  | .movEaxMoffs32 => Sys2Proof.Machine.execMovEaxMoffs32 s
  | .movMoffs8Al => Sys2Proof.Machine.execMovMoffs8Al s
  | .movMoffs32Eax => Sys2Proof.Machine.execMovMoffs32Eax s
  | .movsb => Sys2Proof.Machine.execMovsb s
  | .movsd => Sys2Proof.Machine.execMovsd s
  | .cmpsb => Sys2Proof.Machine.execCmpsb s
  | .cmpsd => Sys2Proof.Machine.execCmpsd s
  | .testAlIb => Sys2Proof.Machine.execTestAlIb s
  | .testEaxId => Sys2Proof.Machine.execTestEaxId s
  | .stosb => Sys2Proof.Machine.execStosb s
  | .stosd => Sys2Proof.Machine.execStosd s
  | .lodsb => Sys2Proof.Machine.execLodsb s
  | .lodsd => Sys2Proof.Machine.execLodsd s
  | .scasb => Sys2Proof.Machine.execScasb s
  | .scasd => Sys2Proof.Machine.execScasd s
  | .movR8Ib => Sys2Proof.Machine.execMovR8Ib s
  | .movR32Id => Sys2Proof.Machine.execMovR32Id s
  | .rolRm8Ib => Sys2Proof.Machine.execRolRm8Ib s
  | .rorRm8Ib => Sys2Proof.Machine.execRorRm8Ib s
  | .rclRm8Ib => Sys2Proof.Machine.execRclRm8Ib s
  | .rcrRm8Ib => Sys2Proof.Machine.execRcrRm8Ib s
  | .shlRm8Ib => Sys2Proof.Machine.execShlRm8Ib s
  | .shrRm8Ib => Sys2Proof.Machine.execShrRm8Ib s
  | .sarRm8Ib => Sys2Proof.Machine.execSarRm8Ib s
  | .rolRm32Ib => Sys2Proof.Machine.execRolRm32Ib s
  | .rorRm32Ib => Sys2Proof.Machine.execRorRm32Ib s
  | .rclRm32Ib => Sys2Proof.Machine.execRclRm32Ib s
  | .rcrRm32Ib => Sys2Proof.Machine.execRcrRm32Ib s
  | .shlRm32Ib => Sys2Proof.Machine.execShlRm32Ib s
  | .shrRm32Ib => Sys2Proof.Machine.execShrRm32Ib s
  | .sarRm32Ib => Sys2Proof.Machine.execSarRm32Ib s
  | .rolRm8One => Sys2Proof.Machine.execRolRm8One s
  | .rorRm8One => Sys2Proof.Machine.execRorRm8One s
  | .rclRm8One => Sys2Proof.Machine.execRclRm8One s
  | .rcrRm8One => Sys2Proof.Machine.execRcrRm8One s
  | .shlRm8One => Sys2Proof.Machine.execShlRm8One s
  | .shrRm8One => Sys2Proof.Machine.execShrRm8One s
  | .sarRm8One => Sys2Proof.Machine.execSarRm8One s
  | .rolRm32One => Sys2Proof.Machine.execRolRm32One s
  | .rorRm32One => Sys2Proof.Machine.execRorRm32One s
  | .rclRm32One => Sys2Proof.Machine.execRclRm32One s
  | .rcrRm32One => Sys2Proof.Machine.execRcrRm32One s
  | .shlRm32One => Sys2Proof.Machine.execShlRm32One s
  | .shrRm32One => Sys2Proof.Machine.execShrRm32One s
  | .sarRm32One => Sys2Proof.Machine.execSarRm32One s
  | .rolRm8Cl => Sys2Proof.Machine.execRolRm8Cl s
  | .rorRm8Cl => Sys2Proof.Machine.execRorRm8Cl s
  | .rclRm8Cl => Sys2Proof.Machine.execRclRm8Cl s
  | .rcrRm8Cl => Sys2Proof.Machine.execRcrRm8Cl s
  | .shlRm8Cl => Sys2Proof.Machine.execShlRm8Cl s
  | .shrRm8Cl => Sys2Proof.Machine.execShrRm8Cl s
  | .sarRm8Cl => Sys2Proof.Machine.execSarRm8Cl s
  | .rolRm32Cl => Sys2Proof.Machine.execRolRm32Cl s
  | .rorRm32Cl => Sys2Proof.Machine.execRorRm32Cl s
  | .rclRm32Cl => Sys2Proof.Machine.execRclRm32Cl s
  | .rcrRm32Cl => Sys2Proof.Machine.execRcrRm32Cl s
  | .shlRm32Cl => Sys2Proof.Machine.execShlRm32Cl s
  | .shrRm32Cl => Sys2Proof.Machine.execShrRm32Cl s
  | .sarRm32Cl => Sys2Proof.Machine.execSarRm32Cl s
  | .retIw => Sys2Proof.Machine.execRetIw s
  | .ret => Sys2Proof.Machine.execRet s
  | .lesR32M => Sys2Proof.Machine.execLesR32M s
  | .ldsR32M => Sys2Proof.Machine.execLdsR32M s
  | .movRm8Ib => Sys2Proof.Machine.execMovRm8Ib s
  | .movRm32Id => Sys2Proof.Machine.execMovRm32Id s
  | .leave => Sys2Proof.Machine.execLeave s
  | .int3 => Sys2Proof.Machine.execInt3 s
  | .intIb => Sys2Proof.Machine.execIntIb s
  | .callRel32 => Sys2Proof.Machine.execCallRel32 s
  | .jmpRel32 => Sys2Proof.Machine.execJmpRel32 s
  | .jmpRel8 => Sys2Proof.Machine.execJmpRel8 s
  | .hlt => Sys2Proof.Machine.execHlt s
  | .cmc => Sys2Proof.Machine.execCmc s
  | .testRm8Ib => Sys2Proof.Machine.execTestRm8Ib s
  | .notRm8 => Sys2Proof.Machine.execNotRm8 s
  | .negRm8 => Sys2Proof.Machine.execNegRm8 s
  | .mulRm8 => Sys2Proof.Machine.execMulRm8 s
  | .imulRm8 => Sys2Proof.Machine.execImulRm8 s
  | .divRm8 => Sys2Proof.Machine.execDivRm8 s
  | .idivRm8 => Sys2Proof.Machine.execIdivRm8 s
  | .testRm32Id => Sys2Proof.Machine.execTestRm32Id s
  | .notRm32 => Sys2Proof.Machine.execNotRm32 s
  | .negRm32 => Sys2Proof.Machine.execNegRm32 s
  | .mulRm32 => Sys2Proof.Machine.execMulRm32 s
  | .imulRm32 => Sys2Proof.Machine.execImulRm32 s
  | .divRm32 => Sys2Proof.Machine.execDivRm32 s
  | .idivRm32 => Sys2Proof.Machine.execIdivRm32 s
  | .clc => Sys2Proof.Machine.execClc s
  | .stc => Sys2Proof.Machine.execStc s
  | .cld => Sys2Proof.Machine.execCld s
  | .std => Sys2Proof.Machine.execStd s
  | .incRm8 => Sys2Proof.Machine.execIncRm8 s
  | .decRm8 => Sys2Proof.Machine.execDecRm8 s
  | .incRm32 => Sys2Proof.Machine.execIncRm32 s
  | .decRm32 => Sys2Proof.Machine.execDecRm32 s
  | .callRm32 => Sys2Proof.Machine.execCallRm32 s
  | .jmpRm32 => Sys2Proof.Machine.execJmpRm32 s
  | .pushRm32 => Sys2Proof.Machine.execPushRm32 s
  | .nopRm32 => Sys2Proof.Machine.execNopRm32 s
  | .cmovoR32Rm32 => Sys2Proof.Machine.execCmovoR32Rm32 s
  | .cmovnoR32Rm32 => Sys2Proof.Machine.execCmovnoR32Rm32 s
  | .cmovbR32Rm32 => Sys2Proof.Machine.execCmovbR32Rm32 s
  | .cmovaeR32Rm32 => Sys2Proof.Machine.execCmovaeR32Rm32 s
  | .cmoveR32Rm32 => Sys2Proof.Machine.execCmoveR32Rm32 s
  | .cmovneR32Rm32 => Sys2Proof.Machine.execCmovneR32Rm32 s
  | .cmovbeR32Rm32 => Sys2Proof.Machine.execCmovbeR32Rm32 s
  | .cmovaR32Rm32 => Sys2Proof.Machine.execCmovaR32Rm32 s
  | .cmovsR32Rm32 => Sys2Proof.Machine.execCmovsR32Rm32 s
  | .cmovnsR32Rm32 => Sys2Proof.Machine.execCmovnsR32Rm32 s
  | .cmovpR32Rm32 => Sys2Proof.Machine.execCmovpR32Rm32 s
  | .cmovnpR32Rm32 => Sys2Proof.Machine.execCmovnpR32Rm32 s
  | .cmovlR32Rm32 => Sys2Proof.Machine.execCmovlR32Rm32 s
  | .cmovgeR32Rm32 => Sys2Proof.Machine.execCmovgeR32Rm32 s
  | .cmovleR32Rm32 => Sys2Proof.Machine.execCmovleR32Rm32 s
  | .cmovgR32Rm32 => Sys2Proof.Machine.execCmovgR32Rm32 s
  | .joRel32 => Sys2Proof.Machine.execJoRel32 s
  | .jnoRel32 => Sys2Proof.Machine.execJnoRel32 s
  | .jbRel32 => Sys2Proof.Machine.execJbRel32 s
  | .jaeRel32 => Sys2Proof.Machine.execJaeRel32 s
  | .jeRel32 => Sys2Proof.Machine.execJeRel32 s
  | .jneRel32 => Sys2Proof.Machine.execJneRel32 s
  | .jbeRel32 => Sys2Proof.Machine.execJbeRel32 s
  | .jaRel32 => Sys2Proof.Machine.execJaRel32 s
  | .jsRel32 => Sys2Proof.Machine.execJsRel32 s
  | .jnsRel32 => Sys2Proof.Machine.execJnsRel32 s
  | .jpRel32 => Sys2Proof.Machine.execJpRel32 s
  | .jnpRel32 => Sys2Proof.Machine.execJnpRel32 s
  | .jlRel32 => Sys2Proof.Machine.execJlRel32 s
  | .jgeRel32 => Sys2Proof.Machine.execJgeRel32 s
  | .jleRel32 => Sys2Proof.Machine.execJleRel32 s
  | .jgRel32 => Sys2Proof.Machine.execJgRel32 s
  | .setoRm8 => Sys2Proof.Machine.execSetoRm8 s
  | .setnoRm8 => Sys2Proof.Machine.execSetnoRm8 s
  | .setbRm8 => Sys2Proof.Machine.execSetbRm8 s
  | .setaeRm8 => Sys2Proof.Machine.execSetaeRm8 s
  | .seteRm8 => Sys2Proof.Machine.execSeteRm8 s
  | .setneRm8 => Sys2Proof.Machine.execSetneRm8 s
  | .setbeRm8 => Sys2Proof.Machine.execSetbeRm8 s
  | .setaRm8 => Sys2Proof.Machine.execSetaRm8 s
  | .setsRm8 => Sys2Proof.Machine.execSetsRm8 s
  | .setnsRm8 => Sys2Proof.Machine.execSetnsRm8 s
  | .setpRm8 => Sys2Proof.Machine.execSetpRm8 s
  | .setnpRm8 => Sys2Proof.Machine.execSetnpRm8 s
  | .setlRm8 => Sys2Proof.Machine.execSetlRm8 s
  | .setgeRm8 => Sys2Proof.Machine.execSetgeRm8 s
  | .setleRm8 => Sys2Proof.Machine.execSetleRm8 s
  | .setgRm8 => Sys2Proof.Machine.execSetgRm8 s
  | .imulR32Rm32 => Sys2Proof.Machine.execImulR32Rm32 s
  | .lssR32M => Sys2Proof.Machine.execLssR32M s
  | .lfsR32M => Sys2Proof.Machine.execLfsR32M s
  | .lgsR32M => Sys2Proof.Machine.execLgsR32M s
  | .movzxR32Rm8 => Sys2Proof.Machine.execMovzxR32Rm8 s
  | .movzxR32Rm16 => Sys2Proof.Machine.execMovzxR32Rm16 s
  | .bsfR32Rm32 => Sys2Proof.Machine.execBsfR32Rm32 s
  | .bsrR32Rm32 => Sys2Proof.Machine.execBsrR32Rm32 s
  | .movsxR32Rm8 => Sys2Proof.Machine.execMovsxR32Rm8 s
  | .movsxR32Rm16 => Sys2Proof.Machine.execMovsxR32Rm16 s
  | .faddM32fp => Sys2Proof.Machine.execFaddM32fp s
  | .fmulM32fp => Sys2Proof.Machine.execFmulM32fp s
  | .fcomM32fp => Sys2Proof.Machine.execFcomM32fp s
  | .fcompM32fp => Sys2Proof.Machine.execFcompM32fp s
  | .fsubM32fp => Sys2Proof.Machine.execFsubM32fp s
  | .fsubrM32fp => Sys2Proof.Machine.execFsubrM32fp s
  | .fdivM32fp => Sys2Proof.Machine.execFdivM32fp s
  | .fdivrM32fp => Sys2Proof.Machine.execFdivrM32fp s
  | .fiaddM32int => Sys2Proof.Machine.execFiaddM32int s
  | .fimulM32int => Sys2Proof.Machine.execFimulM32int s
  | .ficomM32int => Sys2Proof.Machine.execFicomM32int s
  | .ficompM32int => Sys2Proof.Machine.execFicompM32int s
  | .fisubM32int => Sys2Proof.Machine.execFisubM32int s
  | .fisubrM32int => Sys2Proof.Machine.execFisubrM32int s
  | .fidivM32int => Sys2Proof.Machine.execFidivM32int s
  | .fidivrM32int => Sys2Proof.Machine.execFidivrM32int s
  | .faddM64fp => Sys2Proof.Machine.execFaddM64fp s
  | .fmulM64fp => Sys2Proof.Machine.execFmulM64fp s
  | .fcomM64fp => Sys2Proof.Machine.execFcomM64fp s
  | .fcompM64fp => Sys2Proof.Machine.execFcompM64fp s
  | .fsubM64fp => Sys2Proof.Machine.execFsubM64fp s
  | .fsubrM64fp => Sys2Proof.Machine.execFsubrM64fp s
  | .fdivM64fp => Sys2Proof.Machine.execFdivM64fp s
  | .fdivrM64fp => Sys2Proof.Machine.execFdivrM64fp s
  | .fiaddM16int => Sys2Proof.Machine.execFiaddM16int s
  | .fimulM16int => Sys2Proof.Machine.execFimulM16int s
  | .ficomM16int => Sys2Proof.Machine.execFicomM16int s
  | .ficompM16int => Sys2Proof.Machine.execFicompM16int s
  | .fisubM16int => Sys2Proof.Machine.execFisubM16int s
  | .fisubrM16int => Sys2Proof.Machine.execFisubrM16int s
  | .fidivM16int => Sys2Proof.Machine.execFidivM16int s
  | .fidivrM16int => Sys2Proof.Machine.execFidivrM16int s
  | .fldM32fp => Sys2Proof.Machine.execFldM32fp s
  | .fstM32fp => Sys2Proof.Machine.execFstM32fp s
  | .fstpM32fp => Sys2Proof.Machine.execFstpM32fp s
  | .fldcwM16 => Sys2Proof.Machine.execFldcwM16 s
  | .fnstcwM16 => Sys2Proof.Machine.execFnstcwM16 s
  | .fildM32int => Sys2Proof.Machine.execFildM32int s
  | .fistM32int => Sys2Proof.Machine.execFistM32int s
  | .fistpM32int => Sys2Proof.Machine.execFistpM32int s
  | .fldM80fp => Sys2Proof.Machine.execFldM80fp s
  | .fstpM80fp => Sys2Proof.Machine.execFstpM80fp s
  | .fldM64fp => Sys2Proof.Machine.execFldM64fp s
  | .fstM64fp => Sys2Proof.Machine.execFstM64fp s
  | .fstpM64fp => Sys2Proof.Machine.execFstpM64fp s
  | .fnstswM16 => Sys2Proof.Machine.execFnstswM16 s
  | .fildM16int => Sys2Proof.Machine.execFildM16int s
  | .fistM16int => Sys2Proof.Machine.execFistM16int s
  | .fistpM16int => Sys2Proof.Machine.execFistpM16int s
  | .fildM64int => Sys2Proof.Machine.execFildM64int s
  | .fistpM64int => Sys2Proof.Machine.execFistpM64int s
  | .faddSt0Sti => Sys2Proof.Machine.execFaddSt0Sti s
  | .fmulSt0Sti => Sys2Proof.Machine.execFmulSt0Sti s
  | .fcomSti => Sys2Proof.Machine.execFcomSti s
  | .fcompSti => Sys2Proof.Machine.execFcompSti s
  | .fsubSt0Sti => Sys2Proof.Machine.execFsubSt0Sti s
  | .fsubrSt0Sti => Sys2Proof.Machine.execFsubrSt0Sti s
  | .fdivSt0Sti => Sys2Proof.Machine.execFdivSt0Sti s
  | .fdivrSt0Sti => Sys2Proof.Machine.execFdivrSt0Sti s
  | .fldSti => Sys2Proof.Machine.execFldSti s
  | .fxchSti => Sys2Proof.Machine.execFxchSti s
  | .fnop => Sys2Proof.Machine.execFnop s
  | .fchs => Sys2Proof.Machine.execFchs s
  | .fabs => Sys2Proof.Machine.execFabs s
  | .ftst => Sys2Proof.Machine.execFtst s
  | .fld1 => Sys2Proof.Machine.execFld1 s
  | .fldl2t => Sys2Proof.Machine.execFldl2t s
  | .fldl2e => Sys2Proof.Machine.execFldl2e s
  | .fldpi => Sys2Proof.Machine.execFldpi s
  | .fldlg2 => Sys2Proof.Machine.execFldlg2 s
  | .fldln2 => Sys2Proof.Machine.execFldln2 s
  | .fldz => Sys2Proof.Machine.execFldz s
  | .fdecstp => Sys2Proof.Machine.execFdecstp s
  | .fincstp => Sys2Proof.Machine.execFincstp s
  | .fsqrt => Sys2Proof.Machine.execFsqrt s
  | .fcmovbSt0Sti => Sys2Proof.Machine.execFcmovbSt0Sti s
  | .fcmoveSt0Sti => Sys2Proof.Machine.execFcmoveSt0Sti s
  | .fcmovbeSt0Sti => Sys2Proof.Machine.execFcmovbeSt0Sti s
  | .fcmovuSt0Sti => Sys2Proof.Machine.execFcmovuSt0Sti s
  | .fucompp => Sys2Proof.Machine.execFucompp s
  | .fcmovnbSt0Sti => Sys2Proof.Machine.execFcmovnbSt0Sti s
  | .fcmovneSt0Sti => Sys2Proof.Machine.execFcmovneSt0Sti s
  | .fcmovnbeSt0Sti => Sys2Proof.Machine.execFcmovnbeSt0Sti s
  | .fcmovnuSt0Sti => Sys2Proof.Machine.execFcmovnuSt0Sti s
  | .fnclex => Sys2Proof.Machine.execFnclex s
  | .fninit => Sys2Proof.Machine.execFninit s
  | .fucomiSt0Sti => Sys2Proof.Machine.execFucomiSt0Sti s
  | .fcomiSt0Sti => Sys2Proof.Machine.execFcomiSt0Sti s
  | .faddStiSt0 => Sys2Proof.Machine.execFaddStiSt0 s
  | .fmulStiSt0 => Sys2Proof.Machine.execFmulStiSt0 s
  | .fsubrStiSt0 => Sys2Proof.Machine.execFsubrStiSt0 s
  | .fsubStiSt0 => Sys2Proof.Machine.execFsubStiSt0 s
  | .fdivrStiSt0 => Sys2Proof.Machine.execFdivrStiSt0 s
  | .fdivStiSt0 => Sys2Proof.Machine.execFdivStiSt0 s
  | .ffreeSti => Sys2Proof.Machine.execFfreeSti s
  | .fstSti => Sys2Proof.Machine.execFstSti s
  | .fstpSti => Sys2Proof.Machine.execFstpSti s
  | .fucomSti => Sys2Proof.Machine.execFucomSti s
  | .fucompSti => Sys2Proof.Machine.execFucompSti s
  | .faddpStiSt0 => Sys2Proof.Machine.execFaddpStiSt0 s
  | .fmulpStiSt0 => Sys2Proof.Machine.execFmulpStiSt0 s
  | .fcompp => Sys2Proof.Machine.execFcompp s
  | .fsubrpStiSt0 => Sys2Proof.Machine.execFsubrpStiSt0 s
  | .fsubpStiSt0 => Sys2Proof.Machine.execFsubpStiSt0 s
  | .fdivrpStiSt0 => Sys2Proof.Machine.execFdivrpStiSt0 s
  | .fdivpStiSt0 => Sys2Proof.Machine.execFdivpStiSt0 s
  | .fnstswAx => Sys2Proof.Machine.execFnstswAx s
  | .fucomipSt0Sti => Sys2Proof.Machine.execFucomipSt0Sti s
  | .fcomipSt0Sti => Sys2Proof.Machine.execFcomipSt0Sti s

end Sys2Proof.Machine
end

