-- ==== Sys2Proof/Machine/Fetch.lean ====
section
/-! DEFINITION. Instruction fetch (spec/30_encoding.md R100 to R107, R150): the bytes at `eip`, read one at a time
with the bounds check of R72, and the decoded record or the fault. -/

namespace Sys2Proof.Machine

/-- The byte is a prefix (R101). -/
def isPrefixByte (b : Byte) : Bool := (prefixEffect b noPrefixes).isSome

/-- `FetchByte(p)` (R100): none where the check of R72 fails. -/
def fetchByte (s : State) (p : Word) : Option Byte :=
  if s.inBounds p 1 then some (s.mem.read p.toNat) else none

/-- How many prefix bytes stand from `p` on, up to the first byte that is none or cannot be fetched (R101,
R102); none if `fuel` bytes are all prefixes. -/
def prefixRun (s : State) (fuel : Nat) (p : Word) : Option Nat :=
  match fuel with
  | 0 => none
  | k + 1 =>
    match fetchByte s p with
    | none => some 0
    | some b => if isPrefixByte b then (prefixRun s k (p + 1)).map (· + 1) else some 0

/-- The bytes from `p` on, at most `n`, up to the first that cannot be fetched. Addresses wrap (R35, R100). -/
def fetchBytes (s : State) (n : Nat) (p : Word) : List Byte :=
  match n with
  | 0 => []
  | k + 1 =>
    match fetchByte s p with
    | none => []
    | some b => b :: fetchBytes s k (p + 1)

/-- No instruction has more bytes after its prefixes: two opcode bytes, ModRM, SIB, four displacement and four
immediate bytes (R106). -/
def maxBody : Nat := 12

/-- What fetching and decoding gives (R150). -/
inductive Fetched where
  /-- A decoded instruction and the address after it. -/
  | code (c : Code) (next : Word)
  /-- A decode fault or the MemoryFault of a byte outside memory. -/
  | fault (f : Fault)
  /-- Every byte of a memory of 2^32 bytes is a prefix (log 11). -/
  | endless
  deriving DecidableEq, Repr

/-- The fault a decode error stands for (R100, R501 to R505): `got` bytes were fetched before it. -/
def decodeFault (s : State) (got : Nat) : DecodeError → Fault
  | .truncated => s.memoryFault (s.eip + BitVec.ofNat 32 got) 1
  | .unknownOpcode key => .unknownOpcode key s.eip
  | .unsupportedOperandSize key => .unsupportedOperandSize key s.eip
  | .unsupportedGroupExtension key m => .unsupportedGroupExtension key m s.eip
  | .unsupportedAddressingForm key m => .unsupportedAddressingForm key m s.eip

/-- `Decode(eip)` (R150). A truncated instruction stopped at the first byte outside memory: the bytes fetched
reach past every body (`maxBody`) unless the memory ends. -/
def fetch (s : State) : Fetched :=
  match prefixRun s (2 ^ 32) s.eip with
  | none => .endless
  | some n =>
    let bytes := fetchBytes s (n + maxBody) s.eip
    match decode bytes with
    | .ok (c, rest) => .code c (s.eip + BitVec.ofNat 32 (bytes.length - rest.length))
    | .error e => .fault (decodeFault s bytes.length e)

/-- The state in which a decoded instruction executes: the transient decode state of R55 and the record of R150
are set; `eip` still holds the start. -/
def State.enter (s : State) (c : Code) (next : Word) : State :=
  { s with
    seg := c.prefixes.seg
    opsizeOverride := c.prefixes.opsizeOverride
    rep := c.prefixes.rep
    next := next
    ops := c.ops }

/-- Stores bytes at consecutive addresses; an address outside memory is dropped. -/
def placeBytes (s : State) (a : Word) (bytes : List Byte) : State :=
  match bytes with
  | [] => s
  | b :: rest =>
    placeBytes (if s.inBounds a 1 then { s with mem := s.mem.write a.toNat b } else s) (a + 1) rest

end Sys2Proof.Machine
end

