-- ==== Sys2Proof/Machine/Step.lean ====
section
/-! DEFINITION. One step (spec/70_reset_and_hazards.md R560), and a state with an instruction placed where the next
step fetches. -/

namespace Sys2Proof.Machine

/-- `Step` (R560). A terminal state takes no step (R521): its fault is the outcome. A halted machine's step is a
no-op. A fault of the instruction or of its decoding is delivered within the step (`State.deliver`). -/
def step (s : State) : Host.Outcome State Fault Refusal :=
  match s.terminal with
  | some f => .fault f
  | none =>
    if s.halted then .next s
    else
      match fetch s with
      | .code c next => exec c.instr (s.enter c next)
      | .fault f => .next (s.deliver f)
      | .endless => .refused .endlessPrefixRun

/-- The state with an instruction of opcode_table.json (`tableBytes`, log 9) stored at `eip`, where the next step
fetches. -/
def State.withFetchWord (s : State) (nbits w : Nat) : State := placeBytes s s.eip (tableBytes nbits w)

end Sys2Proof.Machine
end

