-- ==== Sys2Proof/Machine/Launch.lean ====
section
/-! DEFINITION. The host interface around the step (spec/70_reset_and_hazards.md R552 to R562): loading, launching,
the host's writes, `run`, and the host's moves around the steps. Nothing here is an instruction; a host write between
steps is no step (log 14). How a program comes to run: log 10. -/

namespace Sys2Proof.Machine

/-- Bytes copied to consecutive addresses from `a` (R86). -/
def copyBytes (m : Memory) (a : Nat) (bytes : List Byte) : Memory :=
  match bytes with
  | [] => m
  | b :: rest => copyBytes (m.write a b) (a + 1) rest

/-- `load(a, bytes)` (R86): all the bytes, or `MemoryFault(a, len(bytes), MEM_SIZE)` and none. No instruction runs, so
the fault's start is `eip` as it stands (DEDUCED, log 18). -/
def State.load (s : State) (a : Word) (bytes : List Byte) : Except Fault State :=
  if s.inBounds a bytes.length then .ok { s with mem := copyBytes s.mem a.toNat bytes }
  else .error (s.memoryFault a bytes.length)

/-- The section payloads, in order (R552 step 2). -/
def State.loadAll (s : State) (payloads : List (Word × List Byte)) : Except Fault State :=
  match payloads with
  | [] => .ok s
  | p :: rest =>
    match s.load p.1 p.2 with
    | .ok t => t.loadAll rest
    | .error f => .error f

/-- The import stub addresses written into their slots, in order (R552 step 3): each an ordinary memory write of the
host (R87), a 32-bit word (DEDUCED, log 20). -/
def State.writeStubs (s : State) (stubs : List (Word × Word)) : Except Fault State :=
  match stubs with
  | [] => .ok s
  | p :: rest =>
    match s.memWrite p.1 p.2 with
    | .ok t => t.writeStubs rest
    | .error f => .error f

/-- One write of the host before the first step or between steps (R552 step 6, R554, R571). -/
inductive HostWrite where
  /-- A general register. -/
  | gpr (i : Reg) (v : Word)
  /-- `eip`; seeding it with ENTRY is such a write. -/
  | eip (v : Word)
  /-- The flags word, inert bits included (R41). -/
  | flags (v : BitVec 32)
  /-- A physical x87 slot. -/
  | fpuSlot (p : BitVec 3) (v : F64)
  /-- `fpu_top`. -/
  | fpuTop (v : BitVec 3)
  /-- `fpu_status`. -/
  | fpuStatus (v : Half)
  /-- `fpu_control`. -/
  | fpuControl (v : Half)
  /-- `fpu_tag`. -/
  | fpuTag (v : Half)
  /-- `halted`: the host may also clear it (R53, R536). -/
  | halted (b : Bool)
  /-- Bytes of memory from `a` on. -/
  | bytes (a : Word) (v : List Byte)
  deriving DecidableEq, Repr

/-- A host write (R554): no instruction, and not counted. Bits 13..11 of the status word stay equal to `fpu_top` (R50)
whichever of the two is written (DEDUCED, log 20); memory has the bounds check of `load` (R571). -/
def State.hostWrite (s : State) (w : HostWrite) : Except Fault State :=
  match w with
  | .gpr i v => .ok (s.setGpr i v)
  | .eip v => .ok { s with eip := v }
  | .flags v => .ok { s with flags := v }
  | .fpuSlot p v => .ok (s.setSlot p v)
  | .fpuTop v => .ok (s.setTop v)
  | .fpuStatus v => .ok { s with fpuStatus := withTop v s.fpuTop }
  | .fpuControl v => .ok { s with fpuControl := v }
  | .fpuTag v => .ok { s with fpuTag := v }
  | .halted b => .ok { s with halted := b }
  | .bytes a v => s.load a v

/-- Host writes in order, up to the first whose bytes lie outside memory. -/
def State.hostWrites (s : State) (ws : List HostWrite) : Except Fault State :=
  match ws with
  | [] => .ok s
  | w :: rest =>
    match s.hostWrite w with
    | .ok t => t.hostWrites rest
    | .error f => .error f

/-- What the host brings to a launch (R19, R552). The handlers it installs (step 4) are parameters. -/
structure Launch where
  config : Config
  payloads : List (Word × List Byte)
  /-- Slots and the stub addresses written into them. -/
  stubs : List (Word × Word)
  entry : Word
  /-- The writes before the first step. -/
  writes : List HostWrite
  deriving DecidableEq, Repr

/-- The launch sequence up to the first step (R552 steps 1 to 6): reset under the parameters, the payloads, the stub
slots, `eip <- ENTRY`, the host's writes. -/
def launch (l : Launch) : Except Fault State := do
  let s ← (State.resetWith l.config).loadAll l.payloads
  let s ← s.writeStubs l.stubs
  ({ s with eip := l.entry } : State).hostWrites l.writes

/-- How a run ends (R562). -/
inductive RunEnd where
  | halted
  | fatal (f : Fault)
  | budgetExhausted
  /-- The model refused a step (log 11). -/
  | refused (r : Refusal)
  deriving DecidableEq, Repr

/-- The end of a run in `s` when no further step is taken (R561). -/
def endOf (s : State) : RunEnd :=
  match s.terminal with
  | some f => .fatal f
  | none => if s.halted then .halted else .budgetExhausted

/-- `run(max_steps)` (R561): the state it leaves and its result. The budget counts every step taken. -/
def run (budget : Nat) (s : State) : State × RunEnd :=
  match budget with
  | 0 => (s, endOf s)
  | k + 1 =>
    if s.halted || s.terminal.isSome then (s, endOf s)
    else
      match step s with
      | .next t => run k t
      | .fault f => (s, .fatal f)
      | .refused r => (s, .refused r)

/-- What the host does around the steps (R552 step 7, R554, R571): it writes, or it lets the machine run; `step` is
`run 1`. -/
inductive HostMove where
  | write (w : HostWrite)
  | run (budget : Nat)
  deriving DecidableEq, Repr

/-- The host's moves in order: the state they leave and the results of the runs, or the MemoryFault of a write that
lies outside memory. Nothing else changes state between steps (R554). -/
def State.session (s : State) (moves : List HostMove) : Except Fault (State × List RunEnd) :=
  match moves with
  | [] => .ok (s, [])
  | .write w :: rest =>
    match s.hostWrite w with
    | .ok t => t.session rest
    | .error f => .error f
  | .run budget :: rest =>
    let r := Machine.run budget s
    match r.1.session rest with
    | .ok q => .ok (q.1, r.2 :: q.2)
    | .error f => .error f

end Sys2Proof.Machine
end

