-- ==== Sys2Proof/Safety.lean ====
section
/-! DEFINITION. What holds of a state between instructions, and which states a run is safe in: the terms the
statements use. -/

namespace Sys2Proof.Machine

/-- Memory is in its canonical form and inside `[0, MEM_SIZE)` (R70, R71). -/
abbrev State.memOk (s : State) : Prop := s.mem.wf ∧ s.mem.within s.config.memSize

/-- Status bits 13..11 equal `fpu_top` (R48, R50). -/
abbrev State.topSynced (s : State) : Prop := s.fpuStatus.extractLsb' 11 3 = s.fpuTop

/-- The transient decode state is none/false/none (R55), and no decoded record is held (log 7). -/
abbrev State.idle (s : State) : Prop :=
  s.seg = .none ∧ s.opsizeOverride = false ∧ s.rep = .none ∧ s.next = 0 ∧ s.ops = noOperands

/-- The flag bits no instruction reads or writes (R41). -/
def inertFlags : BitVec 32 := ~~~0x00000CC1#32

/-- The machine takes steps: it is neither halted nor terminal (R521, R536, R560). -/
abbrev State.running (s : State) : Prop := s.terminal = none ∧ s.halted = false

/-- A fault found no handler (R521). -/
abbrev State.faulted (s : State) : Prop := s.terminal ≠ none

/-- What every state between instructions satisfies. -/
abbrev State.wf (s : State) : Prop := s.memOk ∧ s.topSynced ∧ s.idle

end Sys2Proof.Machine
end

