-- ==== Sys2Proof/Claims.lean ====
section
/-! DEFINITION. The vocabulary of the statements: what an operand is worth, what an instruction stored and what it
left alone, said in terms of single registers, flag bits and memory bytes. -/

namespace Sys2Proof.Claims

open Sys2Proof.Machine

/-! ### Memory -/

/-- The access is permitted (R72). -/
def fits (s : State) (a : Word) (n : Nat) : Bool := a.toNat + n ≤ s.config.memSize

/-- `MemRead(a, n)`: the sum over k of `mem[a + k] << 8k` (R74). -/
def bytesAt (s : State) (a : Word) (n : Nat) : Nat :=
  ((List.range n).map fun k => (s.mem.read (a.toNat + k)).toNat * 256 ^ k).sum

/-- Every byte of memory reads as before. -/
def MemSame (s t : State) : Prop := ∀ a : Nat, t.mem.read a = s.mem.read a

/-- The `n` bytes from `a` are those of `v`, least significant first (R74); every other byte reads as before. -/
def MemStored (s t : State) (a : Word) (n v : Nat) : Prop :=
  (∀ k, k < n → t.mem.read (a.toNat + k) = BitVec.ofNat 8 (v / 256 ^ k)) ∧
    ∀ b : Nat, b < a.toNat ∨ a.toNat + n ≤ b → t.mem.read b = s.mem.read b

/-! ### Registers -/

/-- Every general register is unchanged. -/
def RegsSame (s t : State) : Prop := ∀ i : Reg, t.gpr i = s.gpr i

/-- Every general register outside `l` is unchanged. -/
def RegsSameBut (l : List Reg) (s t : State) : Prop := ∀ i : Reg, i ∉ l → t.gpr i = s.gpr i

/-- The 32-bit register that holds the alias `r` of width `w` (R33, R34). -/
def aliasReg (w : Nat) (r : Reg) : Reg := if w = 8 ∧ 4 ≤ r.toNat then r - 4 else r

/-- The lowest bit of the alias in it (R33, R34). -/
def aliasLow (w : Nat) (r : Reg) : Nat := if w = 8 ∧ 4 ≤ r.toNat then 8 else 0

/-- The value of the register operand `r` of width `w` (R33, R34, R111). -/
def regVal (w : Nat) (s : State) (r : Reg) : BitVec w := (s.gpr (aliasReg w r)).extractLsb' (aliasLow w r) w

/-- The register operand `r` of width `w` holds `v`, and no other bit of any general register changed. -/
def RegSet (w : Nat) (s t : State) (r : Reg) (v : BitVec w) : Prop :=
  regVal w t r = v ∧
    ∀ (i : Reg) (k : Nat), ¬(i = aliasReg w r ∧ aliasLow w r ≤ k ∧ k < aliasLow w r + w) →
      (t.gpr i).getLsbD k = (s.gpr i).getLsbD k

/-! ### The r/m operand -/

/-- The r/m operand of width `w` is a register or lies in memory (R24, R72). -/
def rmFits (w : Nat) (s : State) : Bool :=
  match s.ops.rm with
  | .reg _ => true
  | .mem m => fits s (linearAddr s m) (w / 8)

/-- `Read(rm, w)` (R24). -/
def rmVal (w : Nat) (s : State) : BitVec w :=
  match s.ops.rm with
  | .reg r => regVal w s r
  | .mem m => BitVec.ofNat w (bytesAt s (linearAddr s m) (w / 8))

/-- The r/m operand of width `w` holds `v`; no other register bit and no other byte of memory changed. -/
def RmSet (w : Nat) (s t : State) (v : BitVec w) : Prop :=
  match s.ops.rm with
  | .reg r => RegSet w s t r v ∧ MemSame s t
  | .mem m => RegsSame s t ∧ MemStored s t (linearAddr s m) (w / 8) v.toNat

/-- The memory operand of a row without a register form lies in memory. -/
def memFits (n : Nat) (s : State) : Bool := fits s s.memAddr n

/-- The memory operand of such a row. -/
def memVal (w : Nat) (s : State) : BitVec w := BitVec.ofNat w (bytesAt s s.memAddr (w / 8))

/-! ### Flags -/

/-- Every bit of the flags word outside `l` is unchanged. -/
def FlagsSameBut (l : List Nat) (s t : State) : Prop :=
  ∀ k : Nat, k ∉ l → t.flags.getLsbD k = s.flags.getLsbD k

/-- The four flags of a result `r` (R240 to R242): CF and OF as given, ZF and SF from `r`; every other bit of the
flags word is unchanged. -/
def FlagsOf {w : Nat} (s t : State) (cf of : Bool) (r : BitVec w) : Prop :=
  t.cf = cf ∧ t.of = of ∧ t.zf = decide (r = 0) ∧ t.sf = r.msb ∧ FlagsSameBut [0, 6, 7, 11] s t

/-- CF and OF as given; every other bit of the flags word is unchanged. -/
def CarryOverflow (s t : State) (cf of : Bool) : Prop :=
  t.cf = cf ∧ t.of = of ∧ FlagsSameBut [0, 11] s t

/-! ### Ends of instructions -/

/-- The instruction completed: `eip` is `target` (R36), the count went up by one (R54), no decode state is left
(R55; of it `next` and `ops` are the model's own, log 7), and the parameters, the terminal state and `halted` are as
before. -/
def Ended (s t : State) (target : Word) : Prop :=
  t.eip = target ∧ t.instrCount = s.instrCount + 1 ∧ t.idle ∧ t.config = s.config ∧
    t.terminal = s.terminal ∧ t.halted = s.halted

/-- No x87 state changed. -/
def X87Same (s t : State) : Prop :=
  t.fpuStack = s.fpuStack ∧ t.fpuTop = s.fpuTop ∧ t.fpuStatus = s.fpuStatus ∧
    t.fpuControl = s.fpuControl ∧ t.fpuTag = s.fpuTag

/-- An instruction that is no x87 instruction completed at `target`; it drew no free value (log 3). -/
def IntEnded (s t : State) (target : Word) : Prop :=
  Ended s t target ∧ X87Same s t ∧ t.draws = s.draws

/-- An x87 instruction that writes no memory, no general register and no flag completed. -/
def X87Ended (s t : State) : Prop :=
  Ended s t s.next ∧ RegsSame s t ∧ MemSame s t ∧ t.flags = s.flags

/-! ### Faults and handlers -/

/-- `t` is `s` with everything a host handler may write as its answer `h` gives it, and what the hardware keeps
from it: TOP equals `fpu_top` (R50), the decode state is clear (R103), the parameters and the terminal state stand.
Memory is the answer's (log 5); the answer is counted in the model's own field `draws` (log 3). The count of steps is
said beside it. -/
def HandlerLeft (s : State) (h : HostImage) (t : State) : Prop :=
  t.x = h.x ∧ t.eip = h.eip ∧ t.flags = h.flags ∧ t.fpuStack = h.fpuStack ∧ t.fpuTop = h.fpuTop ∧
    t.topSynced ∧ (∀ k : Nat, k < 11 ∨ 14 ≤ k → t.fpuStatus.getLsbD k = h.fpuStatus.getLsbD k) ∧
    t.fpuControl = h.fpuControl ∧ t.fpuTag = h.fpuTag ∧ t.halted = h.halted ∧
    t.mem = h.memory s.config.memSize ∧ t.idle ∧ t.config = s.config ∧ t.terminal = s.terminal ∧
    t.draws = s.draws + 1

/-- The fault `f` was taken in `s` (R510, R520, R521): a fault of codes 1 to 8 with an exception handler installed
leaves what the handler answers to the fault and the state it finds, and the count as it was; any other ends in the
terminal state (log 17), with nothing else changed but the decode state, which is clear (log 7). -/
def FaultTaken (s : State) (f : Fault) (t : State) : Prop :=
  if s.config.excHandler = true ∧ f.code ≤ 8 then
    HandlerLeft s (hostException s.draws f s.clearDecode) t ∧ t.instrCount = s.instrCount
  else t = { s.clearDecode with terminal := some f }

/-! ### The x87 stack -/

/-- The slot of ST(i): `(fpu_top + i) mod 8` (R47). -/
def slotOf (s : State) (i : Nat) : Nat := (s.fpuTop.toNat + i) % 8

/-- The pattern of a physical slot. -/
def slot (s : State) (p : Nat) : F64 := s.fpuStack.toList.getD p 0

/-- The two tag bits of a physical slot (R52). -/
def tagBits (s : State) (p : Nat) : Nat := s.fpuTag.toNat / 4 ^ p % 4

/-- Every slot but `p` holds its value. -/
def SlotsSameBut (l : List Nat) (s t : State) : Prop := ∀ p : Nat, p ∉ l → slot t p = slot s p

/-- Every tag but those in `l` is unchanged. -/
def TagsSameBut (l : List Nat) (s t : State) : Prop := ∀ p : Nat, p < 8 → p ∉ l → tagBits t p = tagBits s p

/-- `fpu_top` is `top`, TOP follows it (R48, R50), and every other status bit is unchanged. -/
def TopIs (s t : State) (top : Nat) : Prop :=
  t.fpuTop.toNat = top ∧ t.topSynced ∧
    ∀ k : Nat, k < 11 ∨ 14 ≤ k → t.fpuStatus.getLsbD k = s.fpuStatus.getLsbD k

/-- `FPush(v)` took place (R48). -/
def Pushed (s t : State) (v : F64) : Prop :=
  let p := (s.fpuTop.toNat + 7) % 8
  TopIs s t p ∧ slot t p = v ∧ tagBits t p = 0 ∧ SlotsSameBut [p] s t ∧ TagsSameBut [p] s t ∧
    t.fpuControl = s.fpuControl

/-- `FPop()` took place, and nothing else happened to the x87 state (R48). -/
def Popped (s t : State) : Prop :=
  TopIs s t ((s.fpuTop.toNat + 1) % 8) ∧ tagBits t s.fpuTop.toNat = 3 ∧ SlotsSameBut [] s t ∧
    TagsSameBut [s.fpuTop.toNat] s t ∧ t.fpuControl = s.fpuControl

/-- `v` is the value of a result: the rounded value, or, where IEEE 754 gives a NaN, some NaN drawn freshly
(R15, R25; the draw is counted in the model's own field, log 3). -/
def Settled (s t : State) (r : Option F64) (v : F64) : Prop :=
  match r with
  | some x => v = x ∧ t.draws = s.draws
  | none => isNan v = true ∧ t.draws = s.draws + 1

/-! ### Forms of the rows -/

/-- The width of a MOV form: 8, or 32, or 16 under the operand-size prefix (R105, R201 to R203). -/
def movWidth (wide : Bool) (s : State) : Nat := if wide then (if s.opsizeOverride then 16 else 32) else 8

/-- The twelve MOV rows: six forms, each byte or wide (R201 to R203). -/
inductive MovForm where
  | toRm (wide : Bool)
  | fromRm (wide : Bool)
  | immReg (wide : Bool)
  | immRm (wide : Bool)
  | fromMoffs (wide : Bool)
  | toMoffs (wide : Bool)
  deriving DecidableEq, Repr

/-- The row of a form. -/
def MovForm.instr : MovForm → Instr
  | .toRm wide => if wide then .movRm32R32 else .movRm8R8
  | .fromRm wide => if wide then .movR32Rm32 else .movR8Rm8
  | .immReg wide => if wide then .movR32Id else .movR8Ib
  | .immRm wide => if wide then .movRm32Id else .movRm8Ib
  | .fromMoffs wide => if wide then .movEaxMoffs32 else .movAlMoffs8
  | .toMoffs wide => if wide then .movMoffs32Eax else .movMoffs8Al

/-- The form's memory access, if it has one, is permitted. -/
def MovForm.fits (f : MovForm) (s : State) : Bool :=
  match f with
  | .toRm wide => rmFits (movWidth wide s) s
  | .fromRm wide => rmFits (movWidth wide s) s
  | .immReg _ => true
  | .immRm wide => rmFits (movWidth wide s) s
  | .fromMoffs wide => Claims.fits s (resolveSeg s s.ops.moffs) (movWidth wide s / 8)
  | .toMoffs wide => Claims.fits s (resolveSeg s s.ops.moffs) (movWidth wide s / 8)

/-- What the form moves, and that it changes nothing else (R201 to R203). -/
def MovForm.Moved (f : MovForm) (s t : State) : Prop :=
  match f with
  | .toRm wide => RmSet (movWidth wide s) s t (regVal (movWidth wide s) s s.ops.reg)
  | .fromRm wide => RegSet (movWidth wide s) s t s.ops.reg (rmVal (movWidth wide s) s) ∧ MemSame s t
  | .immReg wide =>
    RegSet (movWidth wide s) s t s.ops.reg (s.ops.imm.setWidth (movWidth wide s)) ∧ MemSame s t
  | .immRm wide => RmSet (movWidth wide s) s t (s.ops.imm.setWidth (movWidth wide s))
  | .fromMoffs wide =>
    RegSet (movWidth wide s) s t 0
      (BitVec.ofNat (movWidth wide s) (bytesAt s (resolveSeg s s.ops.moffs) (movWidth wide s / 8))) ∧
      MemSame s t
  | .toMoffs wide =>
    RegsSame s t ∧
      MemStored s t (resolveSeg s s.ops.moffs) (movWidth wide s / 8) (regVal (movWidth wide s) s 0).toNat

/-- The nine operand forms of R244. -/
inductive AluForm where
  | rm8r8
  | rm32r32
  | r8rm8
  | r32rm32
  | alib
  | eaxid
  | rm8ib
  | rm32id
  | rm32ib
  deriving DecidableEq, Repr

/-- The operand width of a form (R244). -/
def AluForm.width : AluForm → Nat
  | .rm8r8 => 8
  | .rm32r32 => 32
  | .r8rm8 => 8
  | .r32rm32 => 32
  | .alib => 8
  | .eaxid => 32
  | .rm8ib => 8
  | .rm32id => 32
  | .rm32ib => 32

/-- The form's memory operand, if it has one, is permitted. -/
def AluForm.fits (f : AluForm) (s : State) : Bool :=
  match f with
  | .alib => true
  | .eaxid => true
  | f => rmFits f.width s

/-- The destination's value (R244). -/
def AluForm.dst (f : AluForm) (s : State) : BitVec f.width :=
  match f with
  | .rm8r8 => rmVal 8 s
  | .rm32r32 => rmVal 32 s
  | .r8rm8 => regVal 8 s s.ops.reg
  | .r32rm32 => regVal 32 s s.ops.reg
  | .alib => regVal 8 s 0
  | .eaxid => regVal 32 s 0
  | .rm8ib => rmVal 8 s
  | .rm32id => rmVal 32 s
  | .rm32ib => rmVal 32 s

/-- The source's value (R244); the immediate is already extended (R130). -/
def AluForm.src (f : AluForm) (s : State) : BitVec f.width :=
  match f with
  | .rm8r8 => regVal 8 s s.ops.reg
  | .rm32r32 => regVal 32 s s.ops.reg
  | .r8rm8 => rmVal 8 s
  | .r32rm32 => rmVal 32 s
  | .alib => s.ops.imm.setWidth 8
  | .eaxid => s.ops.imm
  | .rm8ib => s.ops.imm.setWidth 8
  | .rm32id => s.ops.imm
  | .rm32ib => s.ops.imm

/-- The destination holds `v`, and nothing else among registers and memory changed (R244). -/
def AluForm.Set (f : AluForm) (s t : State) (v : BitVec f.width) : Prop :=
  match f with
  | .rm8r8 => RmSet 8 s t v
  | .rm32r32 => RmSet 32 s t v
  | .r8rm8 => RegSet 8 s t s.ops.reg v ∧ MemSame s t
  | .r32rm32 => RegSet 32 s t s.ops.reg v ∧ MemSame s t
  | .alib => RegSet 8 s t 0 v ∧ MemSame s t
  | .eaxid => RegSet 32 s t 0 v ∧ MemSame s t
  | .rm8ib => RmSet 8 s t v
  | .rm32id => RmSet 32 s t v
  | .rm32ib => RmSet 32 s t v

/-- The 72 rows of the ALU block (R244). -/
def aluInstr (op : AluOp) (f : AluForm) : Instr :=
  match op, f with
  | .add, .rm8r8 => .addRm8R8
  | .add, .rm32r32 => .addRm32R32
  | .add, .r8rm8 => .addR8Rm8
  | .add, .r32rm32 => .addR32Rm32
  | .add, .alib => .addAlIb
  | .add, .eaxid => .addEaxId
  | .add, .rm8ib => .addRm8Ib
  | .add, .rm32id => .addRm32Id
  | .add, .rm32ib => .addRm32Ib
  | .or, .rm8r8 => .orRm8R8
  | .or, .rm32r32 => .orRm32R32
  | .or, .r8rm8 => .orR8Rm8
  | .or, .r32rm32 => .orR32Rm32
  | .or, .alib => .orAlIb
  | .or, .eaxid => .orEaxId
  | .or, .rm8ib => .orRm8Ib
  | .or, .rm32id => .orRm32Id
  | .or, .rm32ib => .orRm32Ib
  | .adc, .rm8r8 => .adcRm8R8
  | .adc, .rm32r32 => .adcRm32R32
  | .adc, .r8rm8 => .adcR8Rm8
  | .adc, .r32rm32 => .adcR32Rm32
  | .adc, .alib => .adcAlIb
  | .adc, .eaxid => .adcEaxId
  | .adc, .rm8ib => .adcRm8Ib
  | .adc, .rm32id => .adcRm32Id
  | .adc, .rm32ib => .adcRm32Ib
  | .sbb, .rm8r8 => .sbbRm8R8
  | .sbb, .rm32r32 => .sbbRm32R32
  | .sbb, .r8rm8 => .sbbR8Rm8
  | .sbb, .r32rm32 => .sbbR32Rm32
  | .sbb, .alib => .sbbAlIb
  | .sbb, .eaxid => .sbbEaxId
  | .sbb, .rm8ib => .sbbRm8Ib
  | .sbb, .rm32id => .sbbRm32Id
  | .sbb, .rm32ib => .sbbRm32Ib
  | .and, .rm8r8 => .andRm8R8
  | .and, .rm32r32 => .andRm32R32
  | .and, .r8rm8 => .andR8Rm8
  | .and, .r32rm32 => .andR32Rm32
  | .and, .alib => .andAlIb
  | .and, .eaxid => .andEaxId
  | .and, .rm8ib => .andRm8Ib
  | .and, .rm32id => .andRm32Id
  | .and, .rm32ib => .andRm32Ib
  | .sub, .rm8r8 => .subRm8R8
  | .sub, .rm32r32 => .subRm32R32
  | .sub, .r8rm8 => .subR8Rm8
  | .sub, .r32rm32 => .subR32Rm32
  | .sub, .alib => .subAlIb
  | .sub, .eaxid => .subEaxId
  | .sub, .rm8ib => .subRm8Ib
  | .sub, .rm32id => .subRm32Id
  | .sub, .rm32ib => .subRm32Ib
  | .xor, .rm8r8 => .xorRm8R8
  | .xor, .rm32r32 => .xorRm32R32
  | .xor, .r8rm8 => .xorR8Rm8
  | .xor, .r32rm32 => .xorR32Rm32
  | .xor, .alib => .xorAlIb
  | .xor, .eaxid => .xorEaxId
  | .xor, .rm8ib => .xorRm8Ib
  | .xor, .rm32id => .xorRm32Id
  | .xor, .rm32ib => .xorRm32Ib
  | .cmp, .rm8r8 => .cmpRm8R8
  | .cmp, .rm32r32 => .cmpRm32R32
  | .cmp, .r8rm8 => .cmpR8Rm8
  | .cmp, .r32rm32 => .cmpR32Rm32
  | .cmp, .alib => .cmpAlIb
  | .cmp, .eaxid => .cmpEaxId
  | .cmp, .rm8ib => .cmpRm8Ib
  | .cmp, .rm32id => .cmpRm32Id
  | .cmp, .rm32ib => .cmpRm32Ib

/-- The six rows of TEST with their operand forms (R284). -/
def testForms : List (Instr × AluForm) :=
  [(.testRm8R8, .rm8r8), (.testRm32R32, .rm32r32), (.testAlIb, .alib), (.testEaxId, .eaxid),
    (.testRm8Ib, .rm8ib), (.testRm32Id, .rm32id)]

/-- The operand forms of INC and DEC (R250, R251); NEG and NOT have the r/m forms (R252, R285). -/
inductive UnForm where
  | r32
  | rm8
  | rm32
  deriving DecidableEq, Repr

/-- The operand width of a form. -/
def UnForm.width : UnForm → Nat
  | .r32 => 32
  | .rm8 => 8
  | .rm32 => 32

/-- The form's memory operand, if it has one, is permitted. -/
def UnForm.fits (f : UnForm) (s : State) : Bool :=
  match f with
  | .r32 => true
  | .rm8 => rmFits 8 s
  | .rm32 => rmFits 32 s

/-- The operand's value. -/
def UnForm.val (f : UnForm) (s : State) : BitVec f.width :=
  match f with
  | .r32 => regVal 32 s s.ops.reg
  | .rm8 => rmVal 8 s
  | .rm32 => rmVal 32 s

/-- The operand holds `v`, and nothing else among registers and memory changed. -/
def UnForm.Set (f : UnForm) (s t : State) (v : BitVec f.width) : Prop :=
  match f with
  | .r32 => RegSet 32 s t s.ops.reg v ∧ MemSame s t
  | .rm8 => RmSet 8 s t v
  | .rm32 => RmSet 32 s t v

/-- The rows of INC (R250). -/
def incInstr : UnForm → Instr
  | .r32 => .incR32
  | .rm8 => .incRm8
  | .rm32 => .incRm32

/-- The rows of DEC (R251). -/
def decInstr : UnForm → Instr
  | .r32 => .decR32
  | .rm8 => .decRm8
  | .rm32 => .decRm32

/-- The rows of NEG (R252). -/
def negForms : List (Instr × UnForm) := [(.negRm8, .rm8), (.negRm32, .rm32)]

/-- The rows of NOT (R285). -/
def notForms : List (Instr × UnForm) := [(.notRm8, .rm8), (.notRm32, .rm32)]

/-- Where a shift or rotate takes its count (R290). -/
inductive CountForm where
  | ib
  | one
  | cl
  deriving DecidableEq, Repr

/-- The masked count (R290). -/
def CountForm.count (f : CountForm) (s : State) : Nat :=
  match f with
  | .ib => s.ops.imm.toNat % 32
  | .one => 1
  | .cl => (regVal 8 s 1).toNat % 32

/-- The width of a shift or rotate. -/
def shiftWidth (wide : Bool) : Nat := if wide then 32 else 8

/-- The 42 rows of the shifts and rotates (R290). -/
def shiftInstr (op : ShiftOp) (wide : Bool) (c : CountForm) : Instr :=
  match op, wide, c with
  | .rol, false, .ib => .rolRm8Ib
  | .rol, false, .one => .rolRm8One
  | .rol, false, .cl => .rolRm8Cl
  | .rol, true, .ib => .rolRm32Ib
  | .rol, true, .one => .rolRm32One
  | .rol, true, .cl => .rolRm32Cl
  | .ror, false, .ib => .rorRm8Ib
  | .ror, false, .one => .rorRm8One
  | .ror, false, .cl => .rorRm8Cl
  | .ror, true, .ib => .rorRm32Ib
  | .ror, true, .one => .rorRm32One
  | .ror, true, .cl => .rorRm32Cl
  | .rcl, false, .ib => .rclRm8Ib
  | .rcl, false, .one => .rclRm8One
  | .rcl, false, .cl => .rclRm8Cl
  | .rcl, true, .ib => .rclRm32Ib
  | .rcl, true, .one => .rclRm32One
  | .rcl, true, .cl => .rclRm32Cl
  | .rcr, false, .ib => .rcrRm8Ib
  | .rcr, false, .one => .rcrRm8One
  | .rcr, false, .cl => .rcrRm8Cl
  | .rcr, true, .ib => .rcrRm32Ib
  | .rcr, true, .one => .rcrRm32One
  | .rcr, true, .cl => .rcrRm32Cl
  | .shl, false, .ib => .shlRm8Ib
  | .shl, false, .one => .shlRm8One
  | .shl, false, .cl => .shlRm8Cl
  | .shl, true, .ib => .shlRm32Ib
  | .shl, true, .one => .shlRm32One
  | .shl, true, .cl => .shlRm32Cl
  | .shr, false, .ib => .shrRm8Ib
  | .shr, false, .one => .shrRm8One
  | .shr, false, .cl => .shrRm8Cl
  | .shr, true, .ib => .shrRm32Ib
  | .shr, true, .one => .shrRm32One
  | .shr, true, .cl => .shrRm32Cl
  | .sar, false, .ib => .sarRm8Ib
  | .sar, false, .one => .sarRm8One
  | .sar, false, .cl => .sarRm8Cl
  | .sar, true, .ib => .sarRm32Ib
  | .sar, true, .one => .sarRm32One
  | .sar, true, .cl => .sarRm32Cl

/-- `rotl_k(v, j)` on numbers (R291). -/
def rotlNat (k v j : Nat) : Nat := (v <<< j ||| v >>> (k - j)) % 2 ^ k

/-- `rotr_k(v, j)` on numbers (R291). -/
def rotrNat (k v j : Nat) : Nat := rotlNat k v ((k - j) % k)

/-- `Cond(cc)` (R340), by the condition code; the two parity codes are not evaluated (R341). -/
def condition (cc : Nat) (s : State) : Bool :=
  let CF := s.flags.getLsbD 0
  let ZF := s.flags.getLsbD 6
  let SF := s.flags.getLsbD 7
  let OF := s.flags.getLsbD 11
  match cc with
  | 0x0 => OF
  | 0x1 => !OF
  | 0x2 => CF
  | 0x3 => !CF
  | 0x4 => ZF
  | 0x5 => !ZF
  | 0x6 => CF || ZF
  | 0x7 => !CF && !ZF
  | 0x8 => SF
  | 0x9 => !SF
  | 0xC => SF != OF
  | 0xD => SF == OF
  | 0xE => ZF || (SF != OF)
  | 0xF => !ZF && (SF == OF)
  | _ => false

/-- The rows of Jcc rel8 with their condition codes (R345). -/
def jccShortRows : List (Instr × Nat) :=
  [(.joRel8, 0x0), (.jnoRel8, 0x1), (.jbRel8, 0x2), (.jaeRel8, 0x3), (.jeRel8, 0x4), (.jneRel8, 0x5),
    (.jbeRel8, 0x6), (.jaRel8, 0x7), (.jsRel8, 0x8), (.jnsRel8, 0x9), (.jlRel8, 0xC), (.jgeRel8, 0xD),
    (.jleRel8, 0xE), (.jgRel8, 0xF)]

/-- The rows of Jcc rel32 with their condition codes (R345). -/
def jccNearRows : List (Instr × Nat) :=
  [(.joRel32, 0x0), (.jnoRel32, 0x1), (.jbRel32, 0x2), (.jaeRel32, 0x3), (.jeRel32, 0x4), (.jneRel32, 0x5),
    (.jbeRel32, 0x6), (.jaRel32, 0x7), (.jsRel32, 0x8), (.jnsRel32, 0x9), (.jlRel32, 0xC), (.jgeRel32, 0xD),
    (.jleRel32, 0xE), (.jgRel32, 0xF)]

/-- The rows of SETcc with their condition codes (R350). -/
def setccRows : List (Instr × Nat) :=
  [(.setoRm8, 0x0), (.setnoRm8, 0x1), (.setbRm8, 0x2), (.setaeRm8, 0x3), (.seteRm8, 0x4), (.setneRm8, 0x5),
    (.setbeRm8, 0x6), (.setaRm8, 0x7), (.setsRm8, 0x8), (.setnsRm8, 0x9), (.setlRm8, 0xC), (.setgeRm8, 0xD),
    (.setleRm8, 0xE), (.setgRm8, 0xF)]

/-- The rows of CMOVcc with their condition codes (R351). -/
def cmovRows : List (Instr × Nat) :=
  [(.cmovoR32Rm32, 0x0), (.cmovnoR32Rm32, 0x1), (.cmovbR32Rm32, 0x2), (.cmovaeR32Rm32, 0x3),
    (.cmoveR32Rm32, 0x4), (.cmovneR32Rm32, 0x5), (.cmovbeR32Rm32, 0x6), (.cmovaR32Rm32, 0x7),
    (.cmovsR32Rm32, 0x8), (.cmovnsR32Rm32, 0x9), (.cmovlR32Rm32, 0xC), (.cmovgeR32Rm32, 0xD),
    (.cmovleR32Rm32, 0xE), (.cmovgR32Rm32, 0xF)]

/-- The rows of FCMOVcc with their condition codes (R490). -/
def fcmovRows : List (Instr × Nat) :=
  [(.fcmovbSt0Sti, 0x2), (.fcmoveSt0Sti, 0x4), (.fcmovbeSt0Sti, 0x6), (.fcmovnbSt0Sti, 0x3),
    (.fcmovneSt0Sti, 0x5), (.fcmovnbeSt0Sti, 0x7)]

/-- The rows of the parity condition with their opcode keys (R341). -/
def parityRows : List (Instr × OpKey) :=
  [(.jpRel8, .one 0x7A), (.jnpRel8, .one 0x7B), (.cmovpR32Rm32, .two 0x4A),
    (.cmovnpR32Rm32, .two 0x4B), (.jpRel32, .two 0x8A), (.jnpRel32, .two 0x8B),
    (.setpRm8, .two 0x9A), (.setnpRm8, .two 0x9B),
    (.fcmovuSt0Sti, .one 0xDA), (.fcmovnuSt0Sti, .one 0xDB)]

/-- The five string operations (R382 to R386). -/
inductive StringOp where
  | movs
  | stos
  | lods
  | scas
  | cmps
  deriving DecidableEq, Repr

/-- The ten string rows. -/
def stringInstr (op : StringOp) (dword : Bool) : Instr :=
  match op, dword with
  | .movs, false => .movsb
  | .movs, true => .movsd
  | .stos, false => .stosb
  | .stos, true => .stosd
  | .lods, false => .lodsb
  | .lods, true => .lodsd
  | .scas, false => .scasb
  | .scas, true => .scasd
  | .cmps, false => .cmpsb
  | .cmps, true => .cmpsd

/-- The element width in bits (R380). -/
def elemWidth (dword : Bool) : Nat := if dword then 32 else 8

/-- `SrcAddr` (R380). -/
def sourceAddr (s : State) : Word := resolveSeg s (s.gpr 6)

/-- The accesses of one iteration are permitted. -/
def StringOp.fits (op : StringOp) (dword : Bool) (s : State) : Bool :=
  let k := elemWidth dword / 8
  match op with
  | .movs => Claims.fits s (sourceAddr s) k && Claims.fits s (s.gpr 7) k
  | .stos => Claims.fits s (s.gpr 7) k
  | .lods => Claims.fits s (sourceAddr s) k
  | .scas => Claims.fits s (s.gpr 7) k
  | .cmps => Claims.fits s (sourceAddr s) k && Claims.fits s (s.gpr 7) k

/-- Where the first access of an iteration that is outside memory lies (R382 to R386): the source is read first, then
the destination is read or written. -/
def StringOp.failedAddr (op : StringOp) (dword : Bool) (s : State) : Word :=
  match op with
  | .lods => sourceAddr s
  | .stos => s.gpr 7
  | .scas => s.gpr 7
  | .movs => if Claims.fits s (sourceAddr s) (elemWidth dword / 8) then s.gpr 7 else sourceAddr s
  | .cmps => if Claims.fits s (sourceAddr s) (elemWidth dword / 8) then s.gpr 7 else sourceAddr s

/-- `x[i]` after `Adv(i)` (R380): `k` up, or `k` down when DF is set, modulo 2^32. -/
def advanced (s : State) (k : Nat) (i : Reg) : Word :=
  if s.df then BitVec.ofInt 32 ((s.gpr i).toNat - k) else BitVec.ofNat 32 ((s.gpr i).toNat + k)

/-- The flags of the comparison of `a` with `b` (R241). -/
def ComparedFlags {w : Nat} (s t : State) (a b : BitVec w) : Prop :=
  let r := BitVec.ofInt w ((a.toNat : Int) - b.toNat)
  FlagsOf s t (decide (a.toNat < b.toNat)) (decide (a.msb ≠ b.msb ∧ r.msb ≠ a.msb)) r

/-- What one iteration does to registers, memory and flags (R382 to R386). -/
def StringOp.Did (op : StringOp) (dword : Bool) (s t : State) : Prop :=
  let w := elemWidth dword
  let k := w / 8
  match op with
  | .movs =>
    MemStored s t (s.gpr 7) k (bytesAt s (sourceAddr s) k) ∧ t.gpr 6 = advanced s k 6 ∧
      t.gpr 7 = advanced s k 7 ∧ RegsSameBut [6, 7] s t ∧ t.flags = s.flags
  | .stos =>
    MemStored s t (s.gpr 7) k (regVal w s 0).toNat ∧ t.gpr 7 = advanced s k 7 ∧ RegsSameBut [7] s t ∧
      t.flags = s.flags
  | .lods =>
    regVal w t 0 = BitVec.ofNat w (bytesAt s (sourceAddr s) k) ∧
      (∀ n : Nat, w ≤ n → (t.gpr 0).getLsbD n = (s.gpr 0).getLsbD n) ∧ t.gpr 6 = advanced s k 6 ∧
      RegsSameBut [0, 6] s t ∧ MemSame s t ∧ t.flags = s.flags
  | .scas =>
    ComparedFlags s t (regVal w s 0) (BitVec.ofNat w (bytesAt s (s.gpr 7) k)) ∧
      t.gpr 7 = advanced s k 7 ∧ RegsSameBut [7] s t ∧ MemSame s t
  | .cmps =>
    ComparedFlags s t (BitVec.ofNat w (bytesAt s (sourceAddr s) k)) (BitVec.ofNat w (bytesAt s (s.gpr 7) k)) ∧
      t.gpr 6 = advanced s k 6 ∧ t.gpr 7 = advanced s k 7 ∧ RegsSameBut [6, 7] s t ∧ MemSame s t

/-- The loop of R381 ends early after an iteration that left the flags of `t`. -/
def StringOp.endsEarly (op : StringOp) (rep : Rep) (t : State) : Bool :=
  match op with
  | .movs => false
  | .stos => false
  | .lods => false
  | .scas => rep == .repe && !t.zf || rep == .repne && t.zf
  | .cmps => rep == .repe && !t.zf || rep == .repne && t.zf

/-- `s` after an iteration whose effect on registers, memory and flags is that of `t`: ECX counted down (R381). -/
def afterIteration (s t : State) : State :=
  { s with x := t.x.set 1 (t.gpr 1 - 1), flags := t.flags, mem := t.mem }

/-- The x87 loads: the memory forms, ST(i), and the constants (R405 to R407). -/
inductive LoadForm where
  | m32fp
  | m64fp
  | m80fp
  | m16int
  | m32int
  | m64int
  | sti
  | one
  | l2t
  | l2e
  | pi
  | lg2
  | ln2
  | zero
  deriving DecidableEq, Repr

/-- The row of a load. -/
def LoadForm.instr : LoadForm → Instr
  | .m32fp => .fldM32fp
  | .m64fp => .fldM64fp
  | .m80fp => .fldM80fp
  | .m16int => .fildM16int
  | .m32int => .fildM32int
  | .m64int => .fildM64int
  | .sti => .fldSti
  | .one => .fld1
  | .l2t => .fldl2t
  | .l2e => .fldl2e
  | .pi => .fldpi
  | .lg2 => .fldlg2
  | .ln2 => .fldln2
  | .zero => .fldz

/-- The bytes a load reads (R401). -/
def LoadForm.bytes : LoadForm → Nat
  | .m32fp => 4
  | .m64fp => 8
  | .m80fp => 10
  | .m16int => 2
  | .m32int => 4
  | .m64int => 8
  | _ => 0

/-- The load's memory operand, if it has one, is permitted. -/
def LoadForm.fits (f : LoadForm) (s : State) : Bool := f.bytes == 0 || memFits f.bytes s

/-- The value a load pushes (R402 to R407); `none` is a NaN conversion. -/
def LoadForm.value (f : LoadForm) (s : State) : Option F64 :=
  match f with
  | .m32fp => cvtF32ToF64 (memVal 32 s)
  | .m64fp => some (memVal 64 s)
  | .m80fp => f80Load s.config.f80 (memVal 80 s)
  | .m16int => some (cvtIntToF64 (memVal 16 s).toInt)
  | .m32int => some (cvtIntToF64 (memVal 32 s).toInt)
  | .m64int => some (cvtIntToF64 (memVal 64 s).toInt)
  | .sti => some (slot s (slotOf s s.stIndex.toNat))
  | .one => some 0x3FF0000000000000#64
  | .l2t => some 0x400A934F0979A371#64
  | .l2e => some 0x3FF71547652B82FE#64
  | .pi => some 0x400921FB54442D18#64
  | .lg2 => some 0x3FD34413509F79FF#64
  | .ln2 => some 0x3FE62E42FEFA39EF#64
  | .zero => some 0x0000000000000000#64

/-- The x87 stores to memory (R408 to R412, R420, R421). -/
inductive StoreForm where
  | fstM32
  | fstM64
  | fstpM32
  | fstpM64
  | fstpM80
  | fistM16
  | fistM32
  | fistpM16
  | fistpM32
  | fistpM64
  | fnstcw
  | fnstsw
  deriving DecidableEq, Repr

/-- The row of a store. -/
def StoreForm.instr : StoreForm → Instr
  | .fstM32 => .fstM32fp
  | .fstM64 => .fstM64fp
  | .fstpM32 => .fstpM32fp
  | .fstpM64 => .fstpM64fp
  | .fstpM80 => .fstpM80fp
  | .fistM16 => .fistM16int
  | .fistM32 => .fistM32int
  | .fistpM16 => .fistpM16int
  | .fistpM32 => .fistpM32int
  | .fistpM64 => .fistpM64int
  | .fnstcw => .fnstcwM16
  | .fnstsw => .fnstswM16

/-- The bytes a store writes (R401). -/
def StoreForm.bytes : StoreForm → Nat
  | .fstM32 => 4
  | .fstM64 => 8
  | .fstpM32 => 4
  | .fstpM64 => 8
  | .fstpM80 => 10
  | .fistM16 => 2
  | .fistM32 => 4
  | .fistpM16 => 2
  | .fistpM32 => 4
  | .fistpM64 => 8
  | .fnstcw => 2
  | .fnstsw => 2

/-- ST(0) (R47). -/
def top0 (s : State) : F64 := slot s (slotOf s 0)

/-- The value a store writes (R403, R404, R410). -/
def StoreForm.value (f : StoreForm) (s : State) : Nat :=
  match f with
  | .fstM32 => (cvtF64ToF32 (top0 s)).toNat
  | .fstM64 => (top0 s).toNat
  | .fstpM32 => (cvtF64ToF32 (top0 s)).toNat
  | .fstpM64 => (top0 s).toNat
  | .fstpM80 => (f80Store s.config.f80 (top0 s)).toNat
  | .fistM16 => (intConv s.config.fistOverflow16 (top0 s)).toNat
  | .fistM32 => (intConv s.config.fistOverflow32 (top0 s)).toNat
  | .fistpM16 => (intConv s.config.fistOverflow16 (top0 s)).toNat
  | .fistpM32 => (intConv s.config.fistOverflow32 (top0 s)).toNat
  | .fistpM64 => (intConv s.config.fistOverflow64 (top0 s)).toNat
  | .fnstcw => s.fpuControl.toNat
  | .fnstsw => s.fpuStatus.toNat

/-- Whether the store pops (R409, R412). -/
def StoreForm.pops : StoreForm → Bool
  | .fstpM32 => true
  | .fstpM64 => true
  | .fstpM80 => true
  | .fistpM16 => true
  | .fistpM32 => true
  | .fistpM64 => true
  | _ => false

/-- The memory sources of the arithmetic and compare forms (R450, R476, R482). -/
inductive SrcForm where
  | m32fp
  | m64fp
  | m32int
  | m16int
  deriving DecidableEq, Repr

/-- The bytes read (R401). -/
def SrcForm.bytes : SrcForm → Nat
  | .m32fp => 4
  | .m64fp => 8
  | .m32int => 4
  | .m16int => 2

/-- The source's value (R402); `none` is a NaN conversion. -/
def SrcForm.value (f : SrcForm) (s : State) : Option F64 :=
  match f with
  | .m32fp => cvtF32ToF64 (memVal 32 s)
  | .m64fp => some (memVal 64 s)
  | .m32int => some (cvtIntToF64 (memVal 32 s).toInt)
  | .m16int => some (cvtIntToF64 (memVal 16 s).toInt)

/-- The 24 memory rows of the arithmetic (R450). -/
def fpMemInstr (op : FpOp) (f : SrcForm) : Instr :=
  match op, f with
  | .add, .m32fp => .faddM32fp
  | .add, .m64fp => .faddM64fp
  | .add, .m32int => .fiaddM32int
  | .add, .m16int => .fiaddM16int
  | .mul, .m32fp => .fmulM32fp
  | .mul, .m64fp => .fmulM64fp
  | .mul, .m32int => .fimulM32int
  | .mul, .m16int => .fimulM16int
  | .sub, .m32fp => .fsubM32fp
  | .sub, .m64fp => .fsubM64fp
  | .sub, .m32int => .fisubM32int
  | .sub, .m16int => .fisubM16int
  | .subr, .m32fp => .fsubrM32fp
  | .subr, .m64fp => .fsubrM64fp
  | .subr, .m32int => .fisubrM32int
  | .subr, .m16int => .fisubrM16int
  | .div, .m32fp => .fdivM32fp
  | .div, .m64fp => .fdivM64fp
  | .div, .m32int => .fidivM32int
  | .div, .m16int => .fidivM16int
  | .divr, .m32fp => .fdivrM32fp
  | .divr, .m64fp => .fdivrM64fp
  | .divr, .m32int => .fidivrM32int
  | .divr, .m16int => .fidivrM16int

/-- `Apply(op, d, src)` (R450); `none` is a NaN. -/
def apply450 (op : FpOp) (d src : F64) : Option F64 :=
  match op with
  | .add => fadd d src
  | .mul => fmul d src
  | .sub => fsub d src
  | .subr => fsub src d
  | .div => fdiv d src
  | .divr => fdiv src d

/-- The register forms of the arithmetic: D8 into ST(0), DC into ST(i), DE into ST(i) with a pop (R450). -/
inductive FpRegForm where
  | toSt0
  | toSti
  | toStiPop
  deriving DecidableEq, Repr

/-- The 18 register rows of the arithmetic (R450). -/
def fpRegInstr (op : FpOp) (f : FpRegForm) : Instr :=
  match op, f with
  | .add, .toSt0 => .faddSt0Sti
  | .add, .toSti => .faddStiSt0
  | .add, .toStiPop => .faddpStiSt0
  | .mul, .toSt0 => .fmulSt0Sti
  | .mul, .toSti => .fmulStiSt0
  | .mul, .toStiPop => .fmulpStiSt0
  | .sub, .toSt0 => .fsubSt0Sti
  | .sub, .toSti => .fsubStiSt0
  | .sub, .toStiPop => .fsubpStiSt0
  | .subr, .toSt0 => .fsubrSt0Sti
  | .subr, .toSti => .fsubrStiSt0
  | .subr, .toStiPop => .fsubrpStiSt0
  | .div, .toSt0 => .fdivSt0Sti
  | .div, .toSti => .fdivStiSt0
  | .div, .toStiPop => .fdivpStiSt0
  | .divr, .toSt0 => .fdivrSt0Sti
  | .divr, .toSti => .fdivrStiSt0
  | .divr, .toStiPop => .fdivrpStiSt0

/-- The eight memory compares (R476, R477, R482, R483). -/
def fcomMemInstr (f : SrcForm) (pop : Bool) : Instr :=
  match f, pop with
  | .m32fp, false => .fcomM32fp
  | .m32fp, true => .fcompM32fp
  | .m64fp, false => .fcomM64fp
  | .m64fp, true => .fcompM64fp
  | .m32int, false => .ficomM32int
  | .m32int, true => .ficompM32int
  | .m16int, false => .ficomM16int
  | .m16int, true => .ficompM16int

/-- The compares of ST(0) with ST(i) that set the condition codes: row, whether the operand is the fixed ST(1),
and how often they pop (R476 to R481). -/
def fcomRegRows : List (Instr × Bool × Nat) :=
  [(.fcomSti, false, 0), (.fcompSti, false, 1), (.fcompp, true, 2), (.fucomSti, false, 0),
    (.fucompSti, false, 1), (.fucompp, true, 2)]

/-- The compares of ST(0) with ST(i) that set the flags, and whether they pop (R486 to R489). -/
def fcomiRows : List (Instr × Bool) :=
  [(.fcomiSt0Sti, false), (.fcomipSt0Sti, true), (.fucomiSt0Sti, false), (.fucomipSt0Sti, true)]

/-- The condition codes of an ordering (R475): C3 is bit 14, C2 bit 10, C1 bit 9, C0 bit 8. Every status bit
outside them and TOP is unchanged. -/
def CodesOf (s t : State) (o : FOrder) : Prop :=
  t.fpuStatus.getLsbD 14 = (o == .eq || o == .un) ∧ t.fpuStatus.getLsbD 10 = (o == .un) ∧
    t.fpuStatus.getLsbD 9 = false ∧ t.fpuStatus.getLsbD 8 = (o == .lt || o == .un) ∧
    ∀ k : Nat, k < 8 ∨ k = 15 → t.fpuStatus.getLsbD k = s.fpuStatus.getLsbD k

/-- The x87 stack after `n` pops (R48): the `n` top slots are EMPTY, every value stands, TOP moved by `n`. -/
def PoppedTimes (n : Nat) (s t : State) : Prop :=
  t.fpuTop.toNat = (s.fpuTop.toNat + n) % 8 ∧ (∀ j : Nat, j < n → tagBits t (slotOf s j) = 3) ∧
    (∀ p : Nat, p < 8 → (∀ j : Nat, j < n → p ≠ slotOf s j) → tagBits t p = tagBits s p) ∧
    SlotsSameBut [] s t ∧ t.fpuControl = s.fpuControl

/-- The value of a finite pattern as a rational number (R25); 0 for the others. -/
def numeric (v : F64) : ℚ :=
  match value64 v with
  | .fin neg m q => (if neg then -1 else 1) * (m : ℚ) * (2 : ℚ) ^ q
  | _ => 0

/-- The pattern is a finite number. -/
def isFinite (v : F64) : Bool := v.extractLsb' 52 11 != 0x7FF#11

/-- `r` is `x` rounded to nearest, ties to even (R25): below the overflow threshold no finite value is nearer, and of
two equally near ones `r` is the one with an even fraction; from the threshold on `r` is the infinity of that sign. -/
def RoundedTo (x : ℝ) (r : F64) : Prop :=
  if |x| < (2 : ℝ) ^ (1024 : Int) - (2 : ℝ) ^ (970 : Int) then
    isFinite r = true ∧
      (∀ z : F64, isFinite z = true → |x - numeric r| ≤ |x - numeric z|) ∧
      ∀ z : F64, isFinite z = true → numeric z ≠ numeric r → |x - numeric z| = |x - numeric r| →
        r.getLsbD 0 = false
  else r = if x < 0 then 0xFFF0000000000000#64 else 0x7FF0000000000000#64

end Sys2Proof.Claims
end

