-- ==== Sys2Proof/WellFormed.lean ====
section
/-! DEFINITION. When a decoded instruction is well formed: its operand fields are ones its row's encoding can
hold (spec/30_encoding.md R105, R112 to R114, R130, R142, R151), and the fields its format lacks are 0. -/

namespace Sys2Proof

/-- A memory operand that some ModRM and SIB byte encodes (R112 to R114): base 4 needs a SIB byte, and base
5 without a displacement is the disp32 form. -/
def MemOp.wf : MemOp → Bool
  | .abs _ => true
  | .base b d => b != 4 && (b != 5 || d != .none)
  | .sib _ _ b d => b != 5 || d != .none
  | .sibAbs _ _ _ => true

/-- An operand that some ModRM byte encodes (R111). -/
def RM.wf : RM → Bool
  | .reg _ => true
  | .mem m => m.wf

/-- The operand is a memory operand (R123). -/
def RM.isMem : RM → Bool
  | .reg _ => false
  | .mem _ => true

/-- The register fields fit the row's shape (R151). -/
def Shape.wf (s : Shape) (o : Operands) : Bool :=
  match s with
  | .none => o.reg == 0 && o.rm == .reg 0
  | .plusR => o.rm == .reg 0
  | .reg => o.rm.wf
  | .mem => o.rm.isMem && o.rm.wf
  | .ext n => o.reg == n && o.rm.wf
  | .extMem n => o.reg == n && (o.rm.isMem && o.rm.wf)
  | .st n => o.reg == n && !o.rm.isMem
  | .fixed n m => o.reg == n && o.rm == .reg m

/-- The value is a sign-extended byte (R130). -/
def isSextByte (w : Word) : Bool := (w.extractLsb' 0 8).signExtend 32 == w

/-- The immediate fields fit the row's field (R130), `osz` being the operand-size prefix. -/
def ImmKind.wf (k : ImmKind) (osz : Bool) (o : Operands) : Bool :=
  match k with
  | .none => o.imm == 0 && (o.rel == 0 && o.moffs == 0)
  | .ib => o.imm.toNat < 256 && (o.rel == 0 && o.moffs == 0)
  | .ibSext => isSextByte o.imm && (o.rel == 0 && o.moffs == 0)
  | .iw => o.imm.toNat < 65536 && (o.rel == 0 && o.moffs == 0)
  | .id => o.rel == 0 && o.moffs == 0
  | .idOrIw => (!osz || o.imm.toNat < 65536) && (o.rel == 0 && o.moffs == 0)
  | .rel8 => isSextByte o.rel && (o.imm == 0 && o.moffs == 0)
  | .rel32 => o.imm == 0 && o.moffs == 0
  | .moffs32 => o.imm == 0 && o.rel == 0

/-- A row with its operand-size prefix and its operands. -/
def Instr.wfWith (i : Instr) (osz : Bool) (o : Operands) : Bool :=
  (!osz || i.row.opsize16) && (i.row.shape.wf o && i.row.imm.wf osz o)

/-- A well-formed instruction: any prefixes, except that 0x66 needs a row that honours it (R105). -/
def Code.wf (c : Code) : Bool := c.instr.wfWith c.prefixes.opsizeOverride c.ops

end Sys2Proof
end

