-- ==== Sys2Proof/Certificates/Slice0/Obligations.lean ====
section
/-! DEFINITION. The statements for the provers. Each says which rules of spec/ it formalises. -/

open Sys2Proof Sys2Proof.Machine Sys2Proof.Claims

/-! ### Reset -/

/-- R60: every piece of state the spec gives a reset value has it. -/
def Obligations.ResetState : Prop :=
  (∀ i : Reg, State.reset.gpr i = 0) ∧ State.reset.eip = 0 ∧ State.reset.flags = 0 ∧
    (∀ p : Nat, p < 8 → slot State.reset p = 0x0000000000000000#64) ∧ State.reset.fpuTop = 0 ∧
    State.reset.fpuStatus = 0x0000#16 ∧ State.reset.fpuControl = 0x037F#16 ∧
    State.reset.fpuTag = 0xFFFF#16 ∧ State.reset.halted = false ∧ State.reset.instrCount = 0 ∧
    State.reset.seg = .none ∧ State.reset.opsizeOverride = false ∧ State.reset.rep = .none ∧
    ∀ a : Nat, State.reset.mem.read a = 0

/-- The invariants below hold right after reset, which is a running state (R550, R560).
The value of `memSize` behind the last clause is the model's choice (log 1), and so are the zeros of `next` and `ops`
at reset in `wf` (log 7). -/
def Obligations.ResetMeetsInvariants : Prop :=
  State.reset.wf ∧ State.reset.running ∧ State.reset.config.wf

/-! ### Encoding -/

/-- R100 to R151: every well-formed instruction, with every operand its encoding can hold and any prefixes,
decodes from its encoding to itself, whatever bytes follow.
The record is the model's `Code` (logs 6 and 8). -/
def Obligations.DecodeOfEncode : Prop :=
  ∀ (c : Code) (rest : List Byte), c.wf = true → decode (encode c ++ rest) = .ok (c, rest)

/-- R100 to R151: what the decoder answers is a well-formed instruction, and the bytes it leaves are the ones
after those it read, at least one.
The record is the model's `Code` (logs 6 and 8). -/
def Obligations.DecodedIsWellFormed : Prop :=
  ∀ (bytes rest : List Byte) (c : Code), decode bytes = .ok (c, rest) →
    c.wf = true ∧ ∃ used : List Byte, used ≠ [] ∧ bytes = used ++ rest

/-- R140 to R142: instruction bytes written out from the encoding tables decode to the row they stand for. -/
def Obligations.DecodeWords : Prop :=
  decode [0x01, 0xD8] = .ok (⟨.addRm32R32, noPrefixes, ⟨3, .reg 0, 0, 0, 0⟩⟩, []) ∧
  decode [0x66, 0xB8, 0x34, 0x12] =
    .ok (⟨.movR32Id, ⟨.none, true, .none⟩, ⟨0, .reg 0, 0x1234, 0, 0⟩⟩, []) ∧
  decode [0x8D, 0x44, 0xB3, 0x08] =
    .ok (⟨.leaR32M, noPrefixes, ⟨0, .mem (.sib 2 6 3 (.disp8 8)), 0, 0, 0⟩⟩, []) ∧
  decode [0xC1, 0xE0, 0x02] = .ok (⟨.shlRm32Ib, noPrefixes, ⟨4, .reg 0, 2, 0, 0⟩⟩, []) ∧
  decode [0x8F, 0x04, 0x24] =
    .ok (⟨.popRm32, noPrefixes, ⟨0, .mem (.sib 0 4 4 .none), 0, 0, 0⟩⟩, []) ∧
  decode [0xF7, 0xF3] = .ok (⟨.divRm32, noPrefixes, ⟨6, .reg 3, 0, 0, 0⟩⟩, []) ∧
  decode [0x0F, 0xBC, 0xC1] = .ok (⟨.bsfR32Rm32, noPrefixes, ⟨0, .reg 1, 0, 0, 0⟩⟩, []) ∧
  decode [0x74, 0x05] = .ok (⟨.jeRel8, noPrefixes, ⟨0, .reg 0, 0, 5, 0⟩⟩, []) ∧
  decode [0xE8, 0x10, 0x00, 0x00, 0x00] = .ok (⟨.callRel32, noPrefixes, ⟨0, .reg 0, 0, 0x10, 0⟩⟩, []) ∧
  decode [0x64, 0xA1, 0x18, 0x00, 0x00, 0x00] =
    .ok (⟨.movEaxMoffs32, ⟨.fs, false, .none⟩, ⟨0, .reg 0, 0, 0, 0x18⟩⟩, []) ∧
  decode [0xF3, 0xAA] = .ok (⟨.stosb, ⟨.none, false, .repe⟩, ⟨0, .reg 0, 0, 0, 0⟩⟩, []) ∧
  decode [0xDB, 0x15, 0x00, 0x01, 0x00, 0x00] =
    .ok (⟨.fistM32int, noPrefixes, ⟨2, .mem (.abs 0x100), 0, 0, 0⟩⟩, []) ∧
  decode [0xDE, 0xE9] = .ok (⟨.fsubpStiSt0, noPrefixes, ⟨5, .reg 1, 0, 0, 0⟩⟩, [])

/-- R101: the eleven prefix bytes and no others, each with its effect: in any sequence of prefixes the last
segment prefix among 64 and 65 and the last of F2 and F3 count, and 66 counts wherever it stands. -/
def Obligations.PrefixScan : Prop :=
  let isPrefix (b : Byte) : Bool :=
    b ∈ [0x64, 0x65, 0x26, 0x2E, 0x36, 0x3E, 0x66, 0x67, 0xF0, 0xF2, 0xF3]
  let lastOf (l : List Byte) (ps : List Byte) : Option Byte := (ps.filter fun b => decide (b ∈ l)).getLast?
  ∀ (ps : List Byte) (b : Byte) (rest : List Byte), (∀ p ∈ ps, isPrefix p = true) → isPrefix b = false →
    scanPrefixes noPrefixes (ps ++ b :: rest) =
      (⟨if lastOf [0x64, 0x65] ps = some 0x64 then .fs
        else if lastOf [0x64, 0x65] ps = some 0x65 then .gs else .none,
        decide (0x66 ∈ ps),
        if lastOf [0xF2, 0xF3] ps = some 0xF2 then .repne
        else if lastOf [0xF2, 0xF3] ps = some 0xF3 then .repe else .none⟩, b :: rest)

/-! ### The step -/

/-- R560: the step of a running machine is `exec` of the instruction decoded at `eip`, entered with its prefixes,
its operands and the address after it; the halted machine's step changes nothing, and a terminal machine takes
no step.
The entered record and the field `terminal` are the model's forms (logs 6, 7 and 17). -/
def Obligations.StepRunsDecoded : Prop :=
  ∀ s : State,
    (∀ (c : Code) (next : Word), s.running → fetch s = .code c next →
      step s = exec c.instr (s.enter c next)) ∧
    (s.terminal = none → s.halted = true → step s = .next s) ∧
    ∀ f : Fault, s.terminal = some f → step s = .fault f

/-- R100, R107, R150, R560: where the bytes at `eip` are an encoding of a well-formed instruction, all of them
inside memory, the step executes that instruction with `next` after those bytes, whatever stands behind them.
The entered record is the model's form (logs 6 and 7). -/
def Obligations.StepRunsEncoded : Prop :=
  ∀ (s : State) (c : Code), s.running → c.wf = true →
    (∀ k : Nat, k < (encode c).length →
      fits s (s.eip + BitVec.ofNat 32 k) 1 = true ∧
        s.mem.read (s.eip + BitVec.ofNat 32 k).toNat = (encode c).getD k 0) →
    step s = exec c.instr (s.enter c (s.eip + BitVec.ofNat 32 (encode c).length))

/-- R72, R100 to R107, R122, R123, R140 to R142, R150, R501 to R505: where a running machine finds, after any prefixes,
the end of memory, a one-byte or 0F opcode that no table lists, the operand-size prefix before an opcode that does not
honour it, a ModRM byte that selects no row of its group or x87 opcode, or a register form of a row that needs memory,
its step takes that fault, with or without an exception handler; so it does where an encoding is cut off by the end of
memory. The state is otherwise that of before (`FaultTaken`: the field `terminal` is log 17, the handler's answer
log 5, the clearing of `next` and `ops` log 7, the cut-off encoding's record logs 6 and 8). -/
def Obligations.FetchFaults : Prop :=
  let prefixBytes : List Byte := [0x64, 0x65, 0x26, 0x2E, 0x36, 0x3E, 0x66, 0x67, 0xF0, 0xF2, 0xF3]
  let unlisted : List Byte :=
    [0x06, 0x07, 0x0E, 0x16, 0x17, 0x1E, 0x1F, 0x27, 0x2F, 0x37, 0x3F, 0x62, 0x63, 0x6C, 0x6D, 0x6E, 0x6F,
      0x82, 0x86, 0x87, 0x8C, 0x8E, 0x91, 0x92, 0x93, 0x94, 0x95, 0x96, 0x97, 0x9A, 0x9C] ++
      [0x9D, 0x9E, 0x9F, 0xC8, 0xCA, 0xCB, 0xCE, 0xCF, 0xD4, 0xD5, 0xD6, 0xD7, 0xE0, 0xE1, 0xE2, 0xE3, 0xE4,
      0xE5, 0xE6, 0xE7, 0xEA, 0xEC, 0xED, 0xEE, 0xEF, 0xF1, 0xFA, 0xFB]
  let listed0F (b : Byte) : Bool :=
    b ∈ [0x1F, 0xAF, 0xB2, 0xB4, 0xB5, 0xB6, 0xB7, 0xBC, 0xBD, 0xBE, 0xBF] ||
      0x40 ≤ b.toNat && b.toNat ≤ 0x4F || 0x80 ≤ b.toNat && b.toNat ≤ 0x9F
  let honours : List Byte :=
    [0x89, 0x8B, 0x90, 0xA1, 0xA3, 0xB8, 0xB9, 0xBA, 0xBB, 0xBC, 0xBD, 0xBE, 0xBF, 0xC7]
  let groups : List (Byte × List Nat) :=
    [(0x8F, [0]), (0xC0, [0, 1, 2, 3, 4, 5, 7]), (0xC1, [0, 1, 2, 3, 4, 5, 7]), (0xC6, [0]), (0xC7, [0]),
      (0xD0, [0, 1, 2, 3, 4, 5, 7]), (0xD1, [0, 1, 2, 3, 4, 5, 7]), (0xD2, [0, 1, 2, 3, 4, 5, 7]),
      (0xD3, [0, 1, 2, 3, 4, 5, 7]), (0xF6, [0, 2, 3, 4, 5, 6, 7]), (0xF7, [0, 2, 3, 4, 5, 6, 7]),
      (0xFE, [0, 1]), (0xFF, [0, 1, 2, 4, 6])]
  let x87Memory : List (Byte × List Nat) :=
    [(0xD9, [0, 2, 3, 5, 7]), (0xDB, [0, 2, 3, 5, 7]), (0xDD, [0, 2, 3, 7]), (0xDF, [0, 2, 3, 5, 7])]
  let x87Registers : List (Byte × List (Nat × Nat)) :=
    [(0xD9, [(0xC0, 0xCF), (0xD0, 0xD0), (0xE0, 0xE1), (0xE4, 0xE4), (0xE8, 0xEE), (0xF6, 0xF7), (0xFA, 0xFA)]),
      (0xDA, [(0xC0, 0xDF), (0xE9, 0xE9)]), (0xDB, [(0xC0, 0xDF), (0xE2, 0xE3), (0xE8, 0xF7)]),
      (0xDC, [(0xC0, 0xCF), (0xE0, 0xFF)]), (0xDD, [(0xC0, 0xC7), (0xD0, 0xEF)]),
      (0xDE, [(0xC0, 0xCF), (0xD9, 0xD9), (0xE0, 0xFF)]), (0xDF, [(0xE0, 0xE0), (0xE8, 0xF7)])]
  let regOf (m : Byte) : Nat := m.toNat / 8 % 8
  ∀ s : State, s.running →
    let stands (l : List Byte) : Prop := ∀ k : Nat, k < l.length →
      fits s (s.eip + BitVec.ofNat 32 k) 1 = true ∧ s.mem.read (s.eip + BitVec.ofNat 32 k).toNat = l.getD k 0
    let faults (f : Fault) : Prop := ∃ t : State, step s = .next t ∧ FaultTaken s f t
    let ends (k : Nat) : Prop := fits s (s.eip + BitVec.ofNat 32 k) 1 = false →
      faults (.memoryFault (s.eip + BitVec.ofNat 32 k) 1 s.config.memSize s.eip)
    (∀ (c : Code) (k : Nat), c.wf = true → k < (encode c).length → stands ((encode c).take k) → ends k) ∧
    ∀ ps : List Byte, (∀ p ∈ ps, p ∈ prefixBytes) →
      let wide : Prop := (0x66 : Byte) ∈ ps
      (stands ps → ends ps.length) ∧
      (∀ b ∈ unlisted, stands (ps ++ [b]) → faults (.unknownOpcode (.one b) s.eip)) ∧
      (∀ b : Byte, listed0F b = false → stands (ps ++ [0x0F, b]) → faults (.unknownOpcode (.two b) s.eip)) ∧
      (wide → ∀ b : Byte, b ∉ prefixBytes → b ∉ unlisted → b ≠ 0x0F → b ∉ honours → stands (ps ++ [b]) →
        faults (.unsupportedOperandSize (.one b) s.eip)) ∧
      (wide → ∀ b : Byte, listed0F b = true → b ≠ 0x1F → stands (ps ++ [0x0F, b]) →
        faults (.unsupportedOperandSize (.two b) s.eip)) ∧
      (∀ g ∈ groups, (wide → g.1 ∈ honours) → ∀ m : Byte, regOf m ∉ g.2 → stands (ps ++ [g.1, m]) →
        faults (.unsupportedGroupExtension (.one g.1) m s.eip)) ∧
      (∀ m : Byte, regOf m ≠ 0 → stands (ps ++ [0x0F, 0x1F, m]) →
        faults (.unsupportedGroupExtension (.two 0x1F) m s.eip)) ∧
      (¬wide → ∀ g ∈ x87Memory, ∀ m : Byte, m.toNat < 0xC0 → regOf m ∉ g.2 → stands (ps ++ [g.1, m]) →
        faults (.unsupportedGroupExtension (.one g.1) m s.eip)) ∧
      (¬wide → ∀ g ∈ x87Registers, ∀ m : Byte, 0xC0 ≤ m.toNat →
        (∀ r ∈ g.2, ¬(r.1 ≤ m.toNat ∧ m.toNat ≤ r.2)) → stands (ps ++ [g.1, m]) →
          faults (.unsupportedGroupExtension (.one g.1) m s.eip)) ∧
      (¬wide → ∀ b ∈ ([0x8D, 0xC4, 0xC5] : List Byte), ∀ m : Byte, 0xC0 ≤ m.toNat → stands (ps ++ [b, m]) →
        faults (.unsupportedAddressingForm (.one b) m s.eip)) ∧
      (¬wide → ∀ b ∈ ([0xB2, 0xB4, 0xB5] : List Byte), ∀ m : Byte, 0xC0 ≤ m.toNat →
        stands (ps ++ [0x0F, b, m]) → faults (.unsupportedAddressingForm (.two b) m s.eip))

/-- R511, R521: a step that ends in a terminal state leaves every register, flag, x87 field and byte of memory, the
count and `eip` as they were before it, unless the instruction was a repeated string instruction.
The field `terminal` is the model's form of `Faulted(F)` (log 17), and `clearDecode` also clears its own
`next` and `ops` (log 7). -/
def Obligations.FaultsArePrecise : Prop :=
  ∀ (s t : State) (f : Fault), s.terminal = none → step s = .next t → t.terminal = some f →
    t = { s.clearDecode with terminal := some f } ∨
      ∃ (c : Code) (next : Word) (op : StringOp) (dword : Bool), fetch s = .code c next ∧
        c.instr = stringInstr op dword ∧ c.prefixes.rep ≠ .none ∧ t.eip = s.eip ∧
        t.instrCount = s.instrCount

/-! ### Invariants -/

/-- Every step keeps memory canonical and inside `[0, MEM_SIZE)` (R70 to R72), also one that ends in a fault or in
a host handler.
That a handler writes no byte outside memory is the model's reading (log 5). -/
def Obligations.MemoryStaysInBounds : Prop :=
  ∀ s t : State, s.memOk → step s = .next t → t.memOk

/-- R50: status bits 13..11 always equal `fpu_top`.
That a handler leaves TOP equal to `fpu_top` is the model's reading (log 5). -/
def Obligations.TopFieldFollowsTop : Prop :=
  ∀ s t : State, s.topSynced → step s = .next t → t.topSynced

/-- R103: at the end of every step of a running machine, completed or faulted, the prefix state is none. -/
def Obligations.PrefixStateIsReset : Prop :=
  ∀ s t : State, s.running → step s = .next t →
    t.seg = .none ∧ t.opsizeOverride = false ∧ t.rep = .none

/-- R41: without host handlers no step writes a bit of the flags word other than 0, 6, 7, 10 and 11. -/
def Obligations.InertFlagsStay : Prop :=
  ∀ s t : State, s.config.excHandler = false → s.config.intHandler = false → step s = .next t →
    FlagsSameBut [0, 6, 7, 10, 11] s t

/-- R54, R510, R560: without an exception handler, the step of a running machine adds one to the count if it
completed, and leaves the count alone if it ended in a fault. -/
def Obligations.CountOfCompletedSteps : Prop :=
  ∀ s t : State, s.running → s.config.excHandler = false → step s = .next t →
    (t.terminal = none → t.instrCount = s.instrCount + 1) ∧
      (t.terminal ≠ none → t.instrCount = s.instrCount)

/-- R53, R354: without host handlers, only HLT halts a running machine. -/
def Obligations.OnlyHltHalts : Prop :=
  ∀ s t : State, s.running → s.config.excHandler = false → s.config.intHandler = false →
    step s = .next t → t.halted = true → ∃ (c : Code) (next : Word), fetch s = .code c next ∧ c.instr = .hlt

/-! ### Registers, memory and addresses -/

/-- R33, R34: a write of an 8- or 16-bit alias replaces its own bits and no other bit of any general register, and
a read gives exactly those bits. -/
def Obligations.RegisterAliases : Prop :=
  ∀ (s : State) (r : Reg),
    s.r8 r = regVal 8 s r ∧ s.r16 r = regVal 16 s r ∧
      (∀ v : Byte, RegSet 8 s (s.setR8 r v) r v) ∧ (∀ v : Half, RegSet 16 s (s.setR16 r v) r v) ∧
      ∀ v : Word, RegSet 32 s (s.setGpr r v) r v

/-- R72, R74: an access of n bytes is permitted iff `a + n <= MEM_SIZE` on unbounded integers; then a read gives the
little-endian sum of the bytes and a write changes those bytes alone, and otherwise both give
`MemoryFault(a, n, MEM_SIZE)`. -/
def Obligations.MemoryAccess : Prop :=
  ∀ (s : State) (a : Word) (n : Nat) (v : BitVec (8 * n)),
    (a.toNat + n ≤ s.config.memSize →
      s.memRead (8 * n) a = .ok (BitVec.ofNat (8 * n) (bytesAt s a n)) ∧
        ∃ t : State, s.memWrite a v = .ok t ∧ MemStored s t a n v.toNat ∧ t = { s with mem := t.mem }) ∧
    (s.config.memSize < a.toNat + n →
      s.memRead (8 * n) a = .error (.memoryFault a n s.config.memSize s.eip) ∧
        s.memWrite a v = .error (.memoryFault a n s.config.memSize s.eip))

/-- R113 to R117, R121: the effective address is the sum modulo 2^32 of the base, the scaled index (none for index 4)
and the displacement, sign-extended from a byte. -/
def Obligations.EffectiveAddress : Prop :=
  let disp (d : Disp) : Int :=
    match d with
    | .none => 0
    | .disp8 b => b.toInt
    | .disp32 w => w.toNat
  let index (s : State) (scale : BitVec 2) (i : Reg) : Int :=
    if i = 4 then 0 else (s.gpr i).toNat * 2 ^ scale.toNat
  ∀ s : State,
    (∀ d : Word, effectiveAddr s (.abs d) = d) ∧
    (∀ (b : Reg) (d : Disp), effectiveAddr s (.base b d) = BitVec.ofInt 32 ((s.gpr b).toNat + disp d)) ∧
    (∀ (scale : BitVec 2) (i b : Reg) (d : Disp), effectiveAddr s (.sib scale i b d) =
      BitVec.ofInt 32 ((s.gpr b).toNat + index s scale i + disp d)) ∧
    ∀ (scale : BitVec 2) (i : Reg) (d : Word), effectiveAddr s (.sibAbs scale i d) =
      BitVec.ofInt 32 (index s scale i + d.toNat)

/-! ### Data movement -/

/-- R201 to R203: the twelve MOV rows, at width 8, 32, or 16 under the operand-size prefix.
`next`, `ops` and `draws` are the model's own fields (logs 3 and 7). -/
def Obligations.MovCompletes : Prop :=
  ∀ (f : MovForm) (s : State), f.fits s = true →
    ∃ t : State, exec f.instr s = .next t ∧ f.Moved s t ∧ t.flags = s.flags ∧ IntEnded s t s.next

/-- R82, R204 to R209: MOVZX and MOVSX extend their source to 32 bits, CDQ spreads the sign of EAX over EDX, and CWDE
sign-extends AX; LEA puts the effective address into the register and calls no resolver; the five far-pointer
loads put the four bytes at the linear address there.
`next`, `ops` and `draws` are the model's own fields (logs 3 and 7). -/
def Obligations.ExtensionsAndAddressLoads : Prop :=
  ∀ s : State,
    let moves (i : Instr) (r : Reg) (v : Word) : Prop :=
      ∃ t : State, exec i s = .next t ∧ RegSet 32 s t r v ∧ MemSame s t ∧ t.flags = s.flags ∧
        IntEnded s t s.next
    (rmFits 8 s = true → moves .movzxR32Rm8 s.ops.reg (BitVec.ofNat 32 (rmVal 8 s).toNat)) ∧
    (rmFits 16 s = true → moves .movzxR32Rm16 s.ops.reg (BitVec.ofNat 32 (rmVal 16 s).toNat)) ∧
    (rmFits 8 s = true → moves .movsxR32Rm8 s.ops.reg (BitVec.ofInt 32 (rmVal 8 s).toInt)) ∧
    (rmFits 16 s = true → moves .movsxR32Rm16 s.ops.reg (BitVec.ofInt 32 (rmVal 16 s).toInt)) ∧
    moves .cdq 2 (if 2 ^ 31 ≤ (s.gpr 0).toNat then 0xFFFFFFFF else 0) ∧
    moves .cwde 0 (BitVec.ofInt 32 (regVal 16 s 0).toInt) ∧
    ∀ m : MemOp, s.ops.rm = .mem m →
      moves .leaR32M s.ops.reg (effectiveAddr s m) ∧
      (fits s (linearAddr s m) 4 = true →
        ∀ i ∈ [Instr.lesR32M, .ldsR32M, .lssR32M, .lfsR32M, .lgsR32M],
          moves i s.ops.reg (BitVec.ofNat 32 (bytesAt s (linearAddr s m) 4)))

/-! ### Arithmetic -/

/-- R240, R242: ADD in its nine forms (R244, R245).
`next`, `ops` and `draws` are the model's own fields (logs 3 and 7). -/
def Obligations.AddCompletes : Prop :=
  ∀ (f : AluForm) (s : State), f.fits s = true →
    let a := f.dst s
    let b := f.src s
    let r := BitVec.ofNat f.width (a.toNat + b.toNat)
    ∃ t : State, exec (aluInstr .add f) s = .next t ∧ f.Set s t r ∧
      FlagsOf s t (decide (r.toNat < a.toNat ∨ r.toNat < b.toNat)) (decide (a.msb = b.msb ∧ r.msb ≠ a.msb)) r ∧
      t.cf = decide (2 ^ f.width ≤ a.toNat + b.toNat) ∧ IntEnded s t s.next

/-- R241, R242: SUB in its nine forms writes the difference (R247), CMP in its nine forms writes the same flags and
nothing else (R249).
`next`, `ops` and `draws` are the model's own fields (logs 3 and 7). -/
def Obligations.SubAndCmpComplete : Prop :=
  ∀ (f : AluForm) (s : State), f.fits s = true →
    let a := f.dst s
    let b := f.src s
    let r := BitVec.ofInt f.width ((a.toNat : Int) - b.toNat)
    (∃ t : State, exec (aluInstr .sub f) s = .next t ∧ f.Set s t r ∧ ComparedFlags s t a b ∧
      IntEnded s t s.next) ∧
    ∃ t : State, exec (aluInstr .cmp f) s = .next t ∧ RegsSame s t ∧ MemSame s t ∧ ComparedFlags s t a b ∧
      IntEnded s t s.next

/-- R243: ADC and SBB in their nine forms each (R246, R248), under either setting of `CARRY_IN_RULE`; under
`Architectural` OF is signed overflow of the three-operand sum and difference.
`next`, `ops` and `draws` are the model's own fields (logs 3 and 7). -/
def Obligations.AdcAndSbbComplete : Prop :=
  ∀ (f : AluForm) (s : State), f.fits s = true →
    let a := f.dst s
    let b := f.src s
    let c := s.cf.toNat
    let sum := BitVec.ofNat f.width (a.toNat + b.toNat + c)
    let diff := BitVec.ofInt f.width ((a.toNat : Int) - b.toNat - c)
    let half : Int := 2 ^ (f.width - 1)
    (∃ t : State, exec (aluInstr .adc f) s = .next t ∧ f.Set s t sum ∧
      FlagsOf s t
        (match s.config.carryIn with
          | .architectural => decide (2 ^ f.width ≤ a.toNat + b.toNat + c)
          | .literalTwoOperand => decide (sum.toNat < a.toNat ∨ sum.toNat < b.toNat))
        (decide (a.msb = b.msb ∧ sum.msb ≠ a.msb)) sum ∧
      t.of = decide (a.toInt + b.toInt + c < -half ∨ half ≤ a.toInt + b.toInt + c) ∧ IntEnded s t s.next) ∧
    ∃ t : State, exec (aluInstr .sbb f) s = .next t ∧ f.Set s t diff ∧
      FlagsOf s t
        (match s.config.carryIn with
          | .architectural => decide (a.toNat < b.toNat + c)
          | .literalTwoOperand => decide (a.toNat < b.toNat))
        (decide (a.msb ≠ b.msb ∧ diff.msb ≠ a.msb)) diff ∧
      t.of = decide (a.toInt - b.toInt - c < -half ∨ half ≤ a.toInt - b.toInt - c) ∧ IntEnded s t s.next

/-- R280: AND, OR and XOR in their nine forms each (R281 to R283) and TEST in its six (R284).
`next`, `ops` and `draws` are the model's own fields (logs 3 and 7). -/
def Obligations.LogicCompletes : Prop :=
  (∀ (f : AluForm) (s : State), f.fits s = true →
    ∀ p ∈ [(AluOp.and, f.dst s &&& f.src s), (.or, f.dst s ||| f.src s), (.xor, f.dst s ^^^ f.src s)],
      ∃ t : State, exec (aluInstr p.1 f) s = .next t ∧ f.Set s t p.2 ∧ FlagsOf s t false false p.2 ∧
        IntEnded s t s.next) ∧
  ∀ p ∈ testForms, ∀ s : State, p.2.fits s = true →
    ∃ t : State, exec p.1 s = .next t ∧ RegsSame s t ∧ MemSame s t ∧
      FlagsOf s t false false (p.2.dst s &&& p.2.src s) ∧ IntEnded s t s.next

/-- R250 to R252, R285: INC and DEC leave CF alone; NEG sets CF unless the operand is 0 and OF for the most negative
operand; NOT writes no flag.
`next`, `ops` and `draws` are the model's own fields (logs 3 and 7). -/
def Obligations.UnaryCompletes : Prop :=
  (∀ (f : UnForm) (s : State), f.fits s = true →
    let a := f.val s
    (∃ t : State, let r := BitVec.ofNat f.width (a.toNat + 1)
      exec (incInstr f) s = .next t ∧ f.Set s t r ∧
        t.of = decide (a.toNat = 2 ^ (f.width - 1) - 1) ∧ t.zf = decide (r = 0) ∧ t.sf = r.msb ∧
        FlagsSameBut [6, 7, 11] s t ∧ IntEnded s t s.next) ∧
    ∃ t : State, let r := BitVec.ofInt f.width ((a.toNat : Int) - 1)
      exec (decInstr f) s = .next t ∧ f.Set s t r ∧
        t.of = decide (a.toNat = 2 ^ (f.width - 1)) ∧ t.zf = decide (r = 0) ∧ t.sf = r.msb ∧
        FlagsSameBut [6, 7, 11] s t ∧ IntEnded s t s.next) ∧
  (∀ p ∈ negForms, ∀ s : State, p.2.fits s = true →
    let a := p.2.val s
    let r := BitVec.ofInt p.2.width (-(a.toNat : Int))
    ∃ t : State, exec p.1 s = .next t ∧ p.2.Set s t r ∧
      FlagsOf s t (decide (a ≠ 0)) (decide (a.toNat = 2 ^ (p.2.width - 1))) r ∧ IntEnded s t s.next) ∧
  ∀ p ∈ notForms, ∀ s : State, p.2.fits s = true →
    ∃ t : State, exec p.1 s = .next t ∧
      p.2.Set s t (BitVec.ofNat p.2.width (2 ^ p.2.width - 1 - (p.2.val s).toNat)) ∧
      t.flags = s.flags ∧ IntEnded s t s.next

/-- R253, R254: the one-operand multiplies put the exact product into AX or EDX:EAX; CF and OF say that its upper
half is significant; the two- and three-operand IMUL (R255, R256) truncate the exact product to 32 bits. Every other flag
bit is unchanged.
`next`, `ops` and `draws` are the model's own fields (logs 3 and 7). -/
def Obligations.MultiplyCompletes : Prop :=
  ∀ s : State,
    (rmFits 8 s = true →
      let u := (regVal 8 s 0).toNat * (rmVal 8 s).toNat
      let i := (regVal 8 s 0).toInt * (rmVal 8 s).toInt
      (∃ t : State, exec .mulRm8 s = .next t ∧ RegSet 16 s t 0 (BitVec.ofNat 16 u) ∧ MemSame s t ∧
        CarryOverflow s t (decide (u / 256 ≠ 0)) (decide (u / 256 ≠ 0)) ∧ IntEnded s t s.next) ∧
      ∃ t : State, exec .imulRm8 s = .next t ∧ RegSet 16 s t 0 (BitVec.ofInt 16 i) ∧ MemSame s t ∧
        CarryOverflow s t (decide (i < -2 ^ 7 ∨ 2 ^ 7 ≤ i)) (decide (i < -2 ^ 7 ∨ 2 ^ 7 ≤ i)) ∧
        IntEnded s t s.next) ∧
    (rmFits 32 s = true →
      let u := (s.gpr 0).toNat * (rmVal 32 s).toNat
      let i := (s.gpr 0).toInt * (rmVal 32 s).toInt
      (∃ t : State, exec .mulRm32 s = .next t ∧
        (t.gpr 2).toNat * 2 ^ 32 + (t.gpr 0).toNat = u ∧ RegsSameBut [0, 2] s t ∧ MemSame s t ∧
        CarryOverflow s t (decide (t.gpr 2 ≠ 0)) (decide (t.gpr 2 ≠ 0)) ∧ IntEnded s t s.next) ∧
      ∃ t : State, exec .imulRm32 s = .next t ∧
        (t.gpr 2).toInt * 2 ^ 32 + (t.gpr 0).toNat = i ∧ RegsSameBut [0, 2] s t ∧ MemSame s t ∧
        CarryOverflow s t (decide (i < -2 ^ 31 ∨ 2 ^ 31 ≤ i)) (decide (i < -2 ^ 31 ∨ 2 ^ 31 ≤ i)) ∧
        IntEnded s t s.next) ∧
    (rmFits 32 s = true →
      ∀ c ∈ [(Instr.imulR32Rm32, (s.gpr s.ops.reg).toInt), (.imulR32Rm32Id, s.ops.imm.toInt),
          (.imulR32Rm32Ib, s.ops.imm.toInt)],
        let p := (rmVal 32 s).toInt * c.2
        ∃ t : State, exec c.1 s = .next t ∧ RegSet 32 s t s.ops.reg (BitVec.ofInt 32 p) ∧ MemSame s t ∧
          CarryOverflow s t (decide (p < -2 ^ 31 ∨ 2 ^ 31 ≤ p)) (decide (p < -2 ^ 31 ∨ 2 ^ 31 ≤ p)) ∧
          IntEnded s t s.next)

/-- R257, R258: with a non-zero divisor and a quotient that fits, DIV and IDIV write quotient and remainder and no
flag; the quotient of IDIV is rounded toward zero.
`next`, `ops` and `draws` are the model's own fields (logs 3 and 7). -/
def Obligations.DivideCompletes : Prop :=
  let puts8 (i : Instr) (s : State) (q m : Byte) : Prop :=
    ∃ t : State, exec i s = .next t ∧ regVal 8 t 0 = q ∧ regVal 8 t 4 = m ∧
      (∀ k : Nat, 16 ≤ k → (t.gpr 0).getLsbD k = (s.gpr 0).getLsbD k) ∧ RegsSameBut [0] s t ∧
      MemSame s t ∧ t.flags = s.flags ∧ IntEnded s t s.next
  let puts32 (i : Instr) (s : State) (q m : Word) : Prop :=
    ∃ t : State, exec i s = .next t ∧ t.gpr 0 = q ∧ t.gpr 2 = m ∧ RegsSameBut [0, 2] s t ∧
      MemSame s t ∧ t.flags = s.flags ∧ IntEnded s t s.next
  ∀ s : State,
    (rmFits 8 s = true →
      let u := (regVal 16 s 0).toNat
      let d := (rmVal 8 s).toNat
      d ≠ 0 → u / d < 2 ^ 8 → puts8 .divRm8 s (BitVec.ofNat 8 (u / d)) (BitVec.ofNat 8 (u % d))) ∧
    (rmFits 32 s = true →
      let u := (s.gpr 2).toNat * 2 ^ 32 + (s.gpr 0).toNat
      let d := (rmVal 32 s).toNat
      d ≠ 0 → u / d < 2 ^ 32 → puts32 .divRm32 s (BitVec.ofNat 32 (u / d)) (BitVec.ofNat 32 (u % d))) ∧
    (rmFits 8 s = true →
      let n := (regVal 16 s 0).toInt
      let d := (rmVal 8 s).toInt
      let q := n.tdiv d
      d ≠ 0 → -2 ^ 7 ≤ q → q < 2 ^ 7 →
        puts8 .idivRm8 s (BitVec.ofInt 8 q) (BitVec.ofInt 8 (n - q * d))) ∧
    (rmFits 32 s = true →
      let n := (s.gpr 2).toInt * 2 ^ 32 + (s.gpr 0).toNat
      let d := (rmVal 32 s).toInt
      let q := n.tdiv d
      d ≠ 0 → -2 ^ 31 ≤ q → q < 2 ^ 31 →
        puts32 .idivRm32 s (BitVec.ofInt 32 q) (BitVec.ofInt 32 (n - q * d)))

/-- R257, R258, R507, R508, R512: a zero divisor raises DivideByZero; a non-zero divisor whose quotient does not fit
raises QuotientOverflow; the fault is delivered on the state before the instruction. -/
def Obligations.DivideFaults : Prop :=
  let zero (i : Instr) (b : Byte) (s : State) : Prop :=
    exec i s = .next (s.deliver (.divideByZero (.one b) s.eip))
  let overflow (i : Instr) (b : Byte) (s : State) : Prop :=
    exec i s = .next (s.deliver (.quotientOverflow (.one b) s.eip))
  ∀ s : State,
    (rmFits 8 s = true → rmVal 8 s = 0 → zero .divRm8 0xF6 s ∧ zero .idivRm8 0xF6 s) ∧
    (rmFits 32 s = true → rmVal 32 s = 0 → zero .divRm32 0xF7 s ∧ zero .idivRm32 0xF7 s) ∧
    (rmFits 8 s = true → rmVal 8 s ≠ 0 →
      (2 ^ 8 ≤ (regVal 16 s 0).toNat / (rmVal 8 s).toNat → overflow .divRm8 0xF6 s) ∧
      let q := (regVal 16 s 0).toInt.tdiv (rmVal 8 s).toInt
      (q < -2 ^ 7 ∨ 2 ^ 7 ≤ q → overflow .idivRm8 0xF6 s)) ∧
    (rmFits 32 s = true → rmVal 32 s ≠ 0 →
      (2 ^ 32 ≤ ((s.gpr 2).toNat * 2 ^ 32 + (s.gpr 0).toNat) / (rmVal 32 s).toNat →
        overflow .divRm32 0xF7 s) ∧
      let q := ((s.gpr 2).toInt * 2 ^ 32 + (s.gpr 0).toNat).tdiv (rmVal 32 s).toInt
      (q < -2 ^ 31 ∨ 2 ^ 31 ≤ q → overflow .idivRm32 0xF7 s))

/-! ### Bit scans, shifts and rotates -/

/-- R286, R287: BSF finds the least set bit and BSR the greatest; a zero source sets ZF and keeps the destination.
`next`, `ops` and `draws` are the model's own fields (logs 3 and 7). -/
def Obligations.BitScanCompletes : Prop :=
  ∀ s : State, rmFits 32 s = true →
    let v := rmVal 32 s
    ∀ p ∈ [(Instr.bsfR32Rm32, true), (.bsrR32Rm32, false)],
      ∃ t : State, exec p.1 s = .next t ∧ t.zf = decide (v = 0) ∧ FlagsSameBut [6] s t ∧ MemSame s t ∧
        IntEnded s t s.next ∧
        (v = 0 → RegsSame s t) ∧
        (v ≠ 0 → ∃ i : Nat, i < 32 ∧ v.getLsbD i = true ∧
          (∀ j : Nat, (if p.2 then j < i else i < j) → v.getLsbD j = false) ∧
          RegSet 32 s t s.ops.reg (BitVec.ofNat 32 i))

/-- R290: a masked count of 0 writes neither the operand nor any flag.
`next`, `ops` and `draws` are the model's own fields (logs 3 and 7). -/
def Obligations.ZeroCountShifts : Prop :=
  ∀ (op : ShiftOp) (wide : Bool) (c : CountForm) (s : State), rmFits (shiftWidth wide) s = true →
    c.count s = 0 →
      ∃ t : State, exec (shiftInstr op wide c) s = .next t ∧ RegsSame s t ∧ MemSame s t ∧
        t.flags = s.flags ∧ IntEnded s t s.next

/-- R290 to R296: ROL, ROR, RCL and RCR with a non-zero masked count; RCL and RCR rotate the value with CF on top of
it. CF and OF follow the result, and every other flag bit is unchanged.
`next`, `ops` and `draws` are the model's own fields (logs 3 and 7). -/
def Obligations.RotatesComplete : Prop :=
  ∀ (wide : Bool) (c : CountForm) (s : State), rmFits (shiftWidth wide) s = true → c.count s ≠ 0 →
    let N := shiftWidth wide
    let a := (rmVal N s).toNat
    let n := c.count s
    let done (op : ShiftOp) (r : Nat) (cf of : Bool) : Prop :=
      ∃ t : State, exec (shiftInstr op wide c) s = .next t ∧ RmSet N s t (BitVec.ofNat N r) ∧
        CarryOverflow s t cf of ∧ IntEnded s t s.next
    (let r := rotlNat N a (n % N);
      done .rol r (r.testBit 0) (r.testBit (N - 1) ^^ r.testBit 0)) ∧
    (let r := rotrNat N a (n % N);
      done .ror r (r.testBit (N - 1)) (r.testBit (N - 1) ^^ r.testBit (N - 2))) ∧
    (let x := rotlNat (N + 1) (s.cf.toNat * 2 ^ N + a) (n % (N + 1));
      let r := x % 2 ^ N
      done .rcl r (x.testBit N) (r.testBit (N - 1) ^^ x.testBit N)) ∧
    (let x := rotrNat (N + 1) (s.cf.toNat * 2 ^ N + a) (n % (N + 1));
      let r := x % 2 ^ N
      done .rcr r (x.testBit N) (r.testBit (N - 1) ^^ r.testBit (N - 2)))

/-- R290, R292, R297 to R299: SHL, SHR and SAR with a non-zero masked count.
`next`, `ops` and `draws` are the model's own fields (logs 3 and 7). -/
def Obligations.ShiftsComplete : Prop :=
  ∀ (wide : Bool) (c : CountForm) (s : State), rmFits (shiftWidth wide) s = true → c.count s ≠ 0 →
    let N := shiftWidth wide
    let a := rmVal N s
    let n := c.count s
    let done (op : ShiftOp) (r : BitVec N) (cf of : Bool) : Prop :=
      ∃ t : State, exec (shiftInstr op wide c) s = .next t ∧ RmSet N s t r ∧ FlagsOf s t cf of r ∧
        IntEnded s t s.next
    (let r := BitVec.ofNat N (a.toNat * 2 ^ n);
      let cf := decide (n ≤ N) && a.toNat.testBit (N - n)
      done .shl r cf (r.msb ^^ cf)) ∧
    done .shr (BitVec.ofNat N (a.toNat / 2 ^ n)) (decide (n ≤ N) && a.toNat.testBit (n - 1)) a.msb ∧
    done .sar (BitVec.ofInt N (a.toInt / 2 ^ n))
      (if n ≤ N then a.toNat.testBit (n - 1) else a.msb) false

/-! ### The stack -/

/-- R320 to R323: the four PUSH rows store their value four bytes below ESP, and ESP ends there; PUSH ESP pushes the
old ESP.
`next`, `ops` and `draws` are the model's own fields (logs 3 and 7). -/
def Obligations.PushCompletes : Prop :=
  ∀ s : State, fits s (s.gpr 4 - 4) 4 = true →
    let pushes (i : Instr) (v : Word) : Prop :=
      ∃ t : State, exec i s = .next t ∧ MemStored s t (s.gpr 4 - 4) 4 v.toNat ∧ t.gpr 4 = s.gpr 4 - 4 ∧
        RegsSameBut [4] s t ∧ t.flags = s.flags ∧ IntEnded s t s.next
    pushes .pushR32 (s.gpr s.ops.reg) ∧ pushes .pushId s.ops.imm ∧ pushes .pushIb s.ops.imm ∧
      (rmFits 32 s = true → pushes .pushRm32 (rmVal 32 s))

/-- R320, R324, R325, R328: POP to a register (POP ESP leaves the popped value in ESP), POP to memory at an address
formed with the advanced ESP, and LEAVE.
`next`, `ops` and `draws` are the model's own fields (logs 3 and 7). -/
def Obligations.PopCompletes : Prop :=
  ∀ s : State,
    let v := BitVec.ofNat 32 (bytesAt s (s.gpr 4) 4)
    let popsTo (i : Instr) (r : Reg) : Prop :=
      ∃ t : State, exec i s = .next t ∧ t.gpr r = v ∧ (r ≠ 4 → t.gpr 4 = s.gpr 4 + 4) ∧
        RegsSameBut [4, r] s t ∧ MemSame s t ∧ t.flags = s.flags ∧ IntEnded s t s.next
    (fits s (s.gpr 4) 4 = true → popsTo .popR32 s.ops.reg ∧
      (∀ r : Reg, s.ops.rm = .reg r → popsTo .popRm32 r) ∧
      ∀ m : MemOp, s.ops.rm = .mem m → fits s (linearAddr (s.setGpr 4 (s.gpr 4 + 4)) m) 4 = true →
        ∃ t : State, exec .popRm32 s = .next t ∧
          MemStored s t (linearAddr (s.setGpr 4 (s.gpr 4 + 4)) m) 4 v.toNat ∧ t.gpr 4 = s.gpr 4 + 4 ∧
          RegsSameBut [4] s t ∧ t.flags = s.flags ∧ IntEnded s t s.next) ∧
    (fits s (s.gpr 5) 4 = true →
      ∃ t : State, exec .leave s = .next t ∧ t.gpr 4 = s.gpr 5 + 4 ∧
        t.gpr 5 = BitVec.ofNat 32 (bytesAt s (s.gpr 5) 4) ∧ RegsSameBut [4, 5] s t ∧ MemSame s t ∧
        t.flags = s.flags ∧ IntEnded s t s.next)

/-- R326, R327: PUSHAD stores the eight registers below ESP, the register k at ESP - 4(k + 1), with ESP as it was;
POPAD loads seven of them back and skips the ESP image.
`next`, `ops` and `draws` are the model's own fields (logs 3 and 7). -/
def Obligations.PushadPopadComplete : Prop :=
  ∀ s : State, s.config.wf →
    (fits s (s.gpr 4 - 32) 32 = true →
      ∃ t : State, exec .pushad s = .next t ∧
        (∀ k : Nat, k < 8 → bytesAt t (s.gpr 4 - BitVec.ofNat 32 (4 * (k + 1))) 4 =
          (s.gpr (BitVec.ofNat 3 k)).toNat) ∧
        (∀ b : Nat, b < (s.gpr 4 - 32).toNat ∨ (s.gpr 4 - 32).toNat + 32 ≤ b →
          t.mem.read b = s.mem.read b) ∧
        t.gpr 4 = s.gpr 4 - 32 ∧ RegsSameBut [4] s t ∧ t.flags = s.flags ∧ IntEnded s t s.next) ∧
    (fits s (s.gpr 4) 32 = true →
      ∃ t : State, exec .popad s = .next t ∧
        (∀ k : Nat, k < 8 → k ≠ 4 → (t.gpr (BitVec.ofNat 3 k)).toNat =
          bytesAt s (s.gpr 4 + BitVec.ofNat 32 (4 * (7 - k))) 4) ∧
        t.gpr 4 = s.gpr 4 + 32 ∧ MemSame s t ∧ t.flags = s.flags ∧ IntEnded s t s.next)

/-! ### Control flow -/

/-- R340, R342 to R345: JMP goes to `next + rel` or to its operand; Jcc goes to `next + rel` if its condition holds
and to `next` otherwise; registers, memory and flags are unchanged.
`next`, `ops` and `draws` are the model's own fields (logs 3 and 7). -/
def Obligations.JumpsComplete : Prop :=
  ∀ s : State,
    let jumps (i : Instr) (target : Word) : Prop :=
      ∃ t : State, exec i s = .next t ∧ RegsSame s t ∧ MemSame s t ∧ t.flags = s.flags ∧
        IntEnded s t target
    let taken := BitVec.ofNat 32 (s.next.toNat + s.ops.rel.toNat)
    jumps .jmpRel8 taken ∧ jumps .jmpRel32 taken ∧ (rmFits 32 s = true → jumps .jmpRm32 (rmVal 32 s)) ∧
      (∀ p ∈ jccShortRows, jumps p.1 (if condition p.2 s then taken else s.next)) ∧
      ∀ p ∈ jccNearRows, jumps p.1 (if condition p.2 s then taken else s.next)

/-- R346 to R349: CALL pushes the address after it and goes to its target, read before ESP changes; RET goes to the
popped address and releases the bytes of its immediate.
`next`, `ops` and `draws` are the model's own fields (logs 3 and 7). -/
def Obligations.CallsAndReturnsComplete : Prop :=
  ∀ s : State,
    let calls (i : Instr) (target : Word) : Prop :=
      ∃ t : State, exec i s = .next t ∧ MemStored s t (s.gpr 4 - 4) 4 s.next.toNat ∧
        t.gpr 4 = s.gpr 4 - 4 ∧ RegsSameBut [4] s t ∧ t.flags = s.flags ∧ IntEnded s t target
    let returns (i : Instr) (extra : Word) : Prop :=
      ∃ t : State, exec i s = .next t ∧ t.gpr 4 = s.gpr 4 + 4 + extra ∧ RegsSameBut [4] s t ∧
        MemSame s t ∧ t.flags = s.flags ∧ IntEnded s t (BitVec.ofNat 32 (bytesAt s (s.gpr 4) 4))
    (fits s (s.gpr 4 - 4) 4 = true → calls .callRel32 (s.next + s.ops.rel) ∧
      (rmFits 32 s = true → calls .callRm32 (rmVal 32 s))) ∧
    (fits s (s.gpr 4) 4 = true → returns .ret 0 ∧ returns .retIw s.ops.imm)

/-- R340, R350, R351: SETcc always writes 0 or 1; CMOVcc writes its source only if the condition holds. No flag is
written.
`next`, `ops` and `draws` are the model's own fields (logs 3 and 7). -/
def Obligations.SetAndMoveOnCondition : Prop :=
  (∀ p ∈ setccRows, ∀ s : State, rmFits 8 s = true →
    ∃ t : State, exec p.1 s = .next t ∧ RmSet 8 s t (if condition p.2 s then 1 else 0) ∧
      t.flags = s.flags ∧ IntEnded s t s.next) ∧
  ∀ p ∈ cmovRows, ∀ s : State, rmFits 32 s = true →
    ∃ t : State, exec p.1 s = .next t ∧
      RegSet 32 s t s.ops.reg (if condition p.2 s then rmVal 32 s else s.gpr s.ops.reg) ∧ MemSame s t ∧
      t.flags = s.flags ∧ IntEnded s t s.next

/-- R341, R506: each of the ten rows of the parity condition raises UnsupportedCondition with its opcode key.
That a row of this kind decodes and its meaning raises the fault is the model's form (log 8). -/
def Obligations.ParityRowsFault : Prop :=
  ∀ p ∈ parityRows, ∀ s : State, exec p.1 s = .next (s.deliver (.unsupportedCondition p.2 s.eip))

/-- R352, R353, R523, R524: INT n and INT3 with a handler installed call it with `eip` at the next instruction and
then count as completed in the state it leaves, memory and status word included; without one the machine enters the
terminal state of UnhandledInterrupt, and nothing else changes. R510, R520, R521: a fault of codes 1 to 8 is given to
the exception handler if one is installed, with the decode state already clear, and the next state is what it leaves,
the count kept; any other fault ends in the terminal state.
What a handler may leave is the model's reading (log 5), the field `terminal` its form (log 17).
`next`, `ops` and `draws` are the model's own fields (logs 3 and 7). -/
def Obligations.SoftwareInterrupts : Prop :=
  (∀ p ∈ [(Instr.intIb, none), (.int3, some (3 : Byte))], ∀ s : State,
    let n : Byte := p.2.getD (s.ops.imm.setWidth 8)
    (s.config.intHandler = true → ∃ t : State, exec p.1 s = .next t ∧
      HandlerLeft s (hostInterrupt s.draws n { s with eip := s.next }) t ∧ t.instrCount = s.instrCount + 1) ∧
    (s.config.intHandler = false →
      exec p.1 s = .next { s.clearDecode with terminal := some (.unhandledInterrupt n s.eip) })) ∧
  ∀ (s : State) (f : Fault), FaultTaken s f (s.deliver f)

/-- R354 to R361, R422: HLT halts; NOP, its r/m form, WAIT and FNOP do nothing; CLC, STC and CMC write CF, CLD and
STD write DF.
`next`, `ops` and `draws` are the model's own fields (logs 3 and 7). -/
def Obligations.FlagAndIdleInstructions : Prop :=
  ∀ s : State,
    let keeps (i : Instr) (l : List Nat) (t : State) : Prop :=
      exec i s = .next t ∧ RegsSame s t ∧ MemSame s t ∧ FlagsSameBut l s t ∧ X87Same s t ∧
        t.draws = s.draws ∧ t.eip = s.next ∧ t.instrCount = s.instrCount + 1 ∧ t.idle ∧
        t.config = s.config ∧ t.terminal = s.terminal
    (∃ t : State, keeps .hlt [] t ∧ t.halted = true) ∧
    (∀ i ∈ [Instr.nop, .nopRm32, .wait, .fnop], ∃ t : State, keeps i [] t ∧ t.halted = s.halted) ∧
    (∃ t : State, keeps .clc [0] t ∧ t.cf = false ∧ t.halted = s.halted) ∧
    (∃ t : State, keeps .stc [0] t ∧ t.cf = true ∧ t.halted = s.halted) ∧
    (∃ t : State, keeps .cmc [0] t ∧ t.cf = !s.cf ∧ t.halted = s.halted) ∧
    (∃ t : State, keeps .cld [10] t ∧ t.df = false ∧ t.halted = s.halted) ∧
    ∃ t : State, keeps .std [10] t ∧ t.df = true ∧ t.halted = s.halted

/-! ### Strings -/

/-- R380, R382 to R386: without a repeat prefix each of the ten string rows performs its body once.
`next`, `ops` and `draws` are the model's own fields (logs 3 and 7). -/
def Obligations.StringsOnceComplete : Prop :=
  ∀ (op : StringOp) (dword : Bool) (s : State), s.rep = .none → op.fits dword s = true →
    ∃ t : State, exec (stringInstr op dword) s = .next t ∧ op.Did dword s t ∧ IntEnded s t s.next

/-- R381, R382 to R386, R503: with a repeat prefix, ECX = 0 completes with nothing changed; otherwise the instruction
performs one iteration, counts ECX down and ends early or goes on from there; the MemoryFault of the iteration's first
access outside memory (the source before the destination) is delivered on the state that iteration began in.
`next`, `ops` and `draws` are the model's own fields (logs 3 and 7). -/
def Obligations.RepeatUnfolds : Prop :=
  ∀ (op : StringOp) (dword : Bool) (s : State), s.rep ≠ .none →
    let i := stringInstr op dword
    (s.gpr 1 = 0 → ∃ t : State, exec i s = .next t ∧ RegsSame s t ∧ MemSame s t ∧ t.flags = s.flags ∧
      IntEnded s t s.next) ∧
    (s.gpr 1 ≠ 0 → ∃ t : State, exec i { s with rep := .none } = .next t ∧
      (op.fits dword s = false → exec i s = .next t ∧
        t = s.deliver (.memoryFault (op.failedAddr dword s) (elemWidth dword / 8) s.config.memSize s.eip)) ∧
      (op.fits dword s = true →
        let u := afterIteration s t
        (op.endsEarly s.rep t = true → exec i s = .next u.complete) ∧
        (op.endsEarly s.rep t = false → exec i s = exec i u)))

/-- R381, R383: REP STOS with DF clear stores ECX elements upward from EDI, leaves ECX = 0 and EDI behind the last
one, and changes nothing else.
`next`, `ops` and `draws` are the model's own fields (logs 3 and 7). -/
def Obligations.RepStosFills : Prop :=
  ∀ (dword : Bool) (s : State), s.rep ≠ .none → s.df = false → s.config.wf →
    let k := elemWidth dword / 8
    let n := (s.gpr 1).toNat
    (s.gpr 7).toNat + n * k ≤ s.config.memSize →
    ∃ t : State, exec (stringInstr .stos dword) s = .next t ∧ t.gpr 1 = 0 ∧
      t.gpr 7 = BitVec.ofNat 32 ((s.gpr 7).toNat + n * k) ∧ RegsSameBut [1, 7] s t ∧
      (∀ j : Nat, j < n * k → t.mem.read ((s.gpr 7).toNat + j) =
        BitVec.ofNat 8 ((s.gpr 0).toNat / 256 ^ (j % k))) ∧
      (∀ b : Nat, b < (s.gpr 7).toNat ∨ (s.gpr 7).toNat + n * k ≤ b → t.mem.read b = s.mem.read b) ∧
      t.flags = s.flags ∧ IntEnded s t s.next

/-! ### x87 -/

/-- R48, R49: nine pushes in sequence from a synchronised stack: each is an FPush, and the ninth overwrites the slot
the first wrote. -/
def Obligations.NinePushesWrap : Prop :=
  (∀ (s : State) (v : F64), Pushed s (s.fpush v) v) ∧ (∀ s : State, Popped s s.fpop) ∧
  ∀ (s : State) (vs : List F64), vs.length = 9 →
    let t := vs.foldl State.fpush s
    slot t (slotOf s 7) = vs.getD 8 0 ∧ slot (s.fpush (vs.getD 0 0)) (slotOf s 7) = vs.getD 0 0 ∧
      ∀ j : Nat, j < 8 → slot t (slotOf t j) = vs.getD (8 - j) 0

/-- R402 to R407: the fourteen x87 loads push their value.
`next`, `ops` and `draws` are the model's own fields (logs 3 and 7). -/
def Obligations.X87LoadsComplete : Prop :=
  ∀ (f : LoadForm) (s : State), f.fits s = true →
    ∃ (t : State) (v : F64), exec f.instr s = .next t ∧ Settled s t (f.value s) v ∧ Pushed s t v ∧
      X87Ended s t

/-- R403, R404, R408 to R412, R420, R421: the twelve x87 stores to memory store their value, and those that pop do
so.
The pattern stored by FST and FSTP m32fp for a NaN, with nothing drawn, is the model's reading (log 15), and so is
the sign of a NaN stored by FSTP m80fp (log 12).
`next`, `ops` and `draws` are the model's own fields (logs 3 and 7). -/
def Obligations.X87StoresComplete : Prop :=
  ∀ (f : StoreForm) (s : State), memFits f.bytes s = true →
    ∃ t : State, exec f.instr s = .next t ∧ MemStored s t s.memAddr f.bytes (f.value s) ∧ RegsSame s t ∧
      t.flags = s.flags ∧ Ended s t s.next ∧ t.draws = s.draws ∧
      (f.pops = false → X87Same s t) ∧ (f.pops = true → Popped s t)

/-- R408, R409, R413 to R419, R421: the x87 rows that move slots, tags, TOP and the two words.
`next`, `ops` and `draws` are the model's own fields (logs 3 and 7). -/
def Obligations.X87StackControl : Prop :=
  ∀ s : State,
    let p := slotOf s 0
    let q := slotOf s s.stIndex.toNat
    let done (i : Instr) (t : State) : Prop := exec i s = .next t ∧ X87Ended s t ∧ t.draws = s.draws
    (∃ t : State, done .fstSti t ∧ slot t q = top0 s ∧ SlotsSameBut [q] s t ∧ tagBits t q = 0 ∧
      TagsSameBut [q] s t ∧ t.fpuTop = s.fpuTop ∧ t.fpuStatus = s.fpuStatus ∧
      t.fpuControl = s.fpuControl) ∧
    (∃ t : State, done .fstpSti t ∧ slot t q = top0 s ∧ SlotsSameBut [q] s t ∧ tagBits t p = 3 ∧
      (q ≠ p → tagBits t q = 0) ∧ TagsSameBut [p, q] s t ∧ TopIs s t ((s.fpuTop.toNat + 1) % 8) ∧
      t.fpuControl = s.fpuControl) ∧
    (∃ t : State, done .fxchSti t ∧ slot t p = slot s q ∧ slot t q = slot s p ∧
      SlotsSameBut [p, q] s t ∧ tagBits t p = tagBits s q ∧ tagBits t q = tagBits s p ∧
      TagsSameBut [p, q] s t ∧ t.fpuTop = s.fpuTop ∧ t.fpuStatus = s.fpuStatus ∧
      t.fpuControl = s.fpuControl) ∧
    (∃ t : State, done .ffreeSti t ∧ tagBits t q = 3 ∧ TagsSameBut [q] s t ∧
      t.fpuStack = s.fpuStack ∧ t.fpuTop = s.fpuTop ∧ t.fpuStatus = s.fpuStatus ∧
      t.fpuControl = s.fpuControl) ∧
    (∀ r ∈ [(Instr.fincstp, 1), (.fdecstp, 7)], ∃ t : State, done r.1 t ∧
      TopIs s t ((s.fpuTop.toNat + r.2) % 8) ∧ t.fpuStack = s.fpuStack ∧ t.fpuTag = s.fpuTag ∧
      t.fpuControl = s.fpuControl) ∧
    (∃ t : State, done .fninit t ∧ t.fpuControl = 0x037F ∧ t.fpuStatus = 0 ∧ t.fpuTag = 0xFFFF ∧
      t.fpuTop = 0 ∧ t.fpuStack = s.fpuStack) ∧
    (∃ t : State, done .fnclex t ∧ (∀ k : Nat, k < 8 ∨ k = 15 → t.fpuStatus.getLsbD k = false) ∧
      (∀ k : Nat, 8 ≤ k → k < 15 → t.fpuStatus.getLsbD k = s.fpuStatus.getLsbD k) ∧
      t.fpuStack = s.fpuStack ∧ t.fpuTop = s.fpuTop ∧ t.fpuTag = s.fpuTag ∧
      t.fpuControl = s.fpuControl) ∧
    (memFits 2 s = true → ∃ t : State, done .fldcwM16 t ∧ t.fpuControl = memVal 16 s ∧
      t.fpuStack = s.fpuStack ∧ t.fpuTop = s.fpuTop ∧ t.fpuStatus = s.fpuStatus ∧
      t.fpuTag = s.fpuTag) ∧
    ∃ t : State, exec .fnstswAx s = .next t ∧ RegSet 16 s t 0 s.fpuStatus ∧ MemSame s t ∧
      t.flags = s.flags ∧ IntEnded s t s.next

/-- R450 to R468, memory forms: ST(0) becomes the result of the operation on it and the converted operand; a NaN
operand or result is drawn; tags, TOP and the two words are unchanged.
`next`, `ops` and `draws` are the model's own fields (logs 3 and 7). -/
def Obligations.X87MemoryArithmetic : Prop :=
  ∀ (op : FpOp) (f : SrcForm) (s : State), memFits f.bytes s = true →
    ∃ (t : State) (v : F64), exec (fpMemInstr op f) s = .next t ∧ slot t (slotOf s 0) = v ∧
      (match f.value s with
        | some b => Settled s t (apply450 op (top0 s) b) v
        | none => isNan v = true ∧ t.draws = s.draws + 2) ∧
      SlotsSameBut [slotOf s 0] s t ∧ t.fpuTop = s.fpuTop ∧ t.fpuStatus = s.fpuStatus ∧
      t.fpuControl = s.fpuControl ∧ t.fpuTag = s.fpuTag ∧ X87Ended s t

/-- R450 to R467, register forms: D8 writes ST(0), DC writes ST(i), DE writes ST(i) and pops; tags but the popped one
are unchanged.
`next`, `ops` and `draws` are the model's own fields (logs 3 and 7). -/
def Obligations.X87RegisterArithmetic : Prop :=
  ∀ (op : FpOp) (s : State),
    let q := slotOf s s.stIndex.toNat
    let st0 := top0 s
    let sti := slot s q
    let done (f : FpRegForm) (dst : Nat) (r : Option F64) (t : State) (v : F64) : Prop :=
      exec (fpRegInstr op f) s = .next t ∧ slot t dst = v ∧ Settled s t r v ∧ SlotsSameBut [dst] s t ∧
        t.fpuControl = s.fpuControl ∧ X87Ended s t
    (∃ (t : State) (v : F64), done .toSt0 (slotOf s 0) (apply450 op st0 sti) t v ∧ t.fpuTop = s.fpuTop ∧
      t.fpuStatus = s.fpuStatus ∧ t.fpuTag = s.fpuTag) ∧
    (∃ (t : State) (v : F64), done .toSti q (apply450 op sti st0) t v ∧ t.fpuTop = s.fpuTop ∧
      t.fpuStatus = s.fpuStatus ∧ t.fpuTag = s.fpuTag) ∧
    ∃ (t : State) (v : F64), done .toStiPop q (apply450 op sti st0) t v ∧
      TopIs s t ((s.fpuTop.toNat + 1) % 8) ∧ tagBits t s.fpuTop.toNat = 3 ∧
      TagsSameBut [s.fpuTop.toNat] s t

/-- R469 to R471, R490: FCHS inverts the sign bit of ST(0) and FABS clears it, also of a NaN; FSQRT replaces ST(0) by
its root, a NaN for a negative number; FCMOVcc copies ST(i) to ST(0) if its condition holds. Tags, TOP and the two
words are unchanged.
`next`, `ops` and `draws` are the model's own fields (logs 3 and 7). -/
def Obligations.X87UnaryAndMovesComplete : Prop :=
  ∀ s : State,
    let done (i : Instr) (t : State) : Prop :=
      exec i s = .next t ∧ SlotsSameBut [slotOf s 0] s t ∧ t.fpuTop = s.fpuTop ∧
        t.fpuStatus = s.fpuStatus ∧ t.fpuControl = s.fpuControl ∧ t.fpuTag = s.fpuTag ∧ X87Ended s t
    let bits (i : Instr) (sign : Bool) : Prop :=
      ∃ t : State, done i t ∧ t.draws = s.draws ∧ (top0 t).getLsbD 63 = sign ∧
        ∀ k : Nat, k < 63 → (top0 t).getLsbD k = (top0 s).getLsbD k
    bits .fchs (!(top0 s).msb) ∧ bits .fabs false ∧
      (∃ (t : State) (v : F64), done .fsqrt t ∧ top0 t = v ∧ Settled s t (fsqrt (top0 s)) v) ∧
      ∀ p ∈ fcmovRows, ∃ t : State, done p.1 t ∧ t.draws = s.draws ∧
        top0 t = if condition p.2 s then slot s (slotOf s s.stIndex.toNat) else top0 s

/-- R475 to R484: the x87 compares set C3, C2 and C0 from the ordering of ST(0) and the operand, clear C1, change no
other status bit but TOP, and pop as their rows say.
`next`, `ops` and `draws` are the model's own fields (logs 3 and 7). -/
def Obligations.X87ComparesComplete : Prop :=
  ∀ s : State,
    let done (i : Instr) (b : F64) (n : Nat) (t : State) : Prop :=
      exec i s = .next t ∧ CodesOf s t (fcompare (top0 s) b) ∧ PoppedTimes n s t ∧
        (s.topSynced → t.topSynced) ∧ X87Ended s t
    (∀ (f : SrcForm) (pop : Bool), memFits f.bytes s = true →
      ∃ (t : State) (b : F64), Settled s t (f.value s) b ∧
        done (fcomMemInstr f pop) b (if pop then 1 else 0) t) ∧
    (∀ p ∈ fcomRegRows,
      ∃ t : State, done p.1 (slot s (slotOf s (if p.2.1 then 1 else s.stIndex.toNat))) p.2.2 t ∧
        t.draws = s.draws) ∧
    ∃ t : State, done .ftst 0x0000000000000000#64 0 t ∧ t.draws = s.draws

/-- R485 to R489: the four flag-setting compares write ZF and CF from the ordering and clear OF; SF, DF, every other
flag bit and the condition codes are unchanged.
`next`, `ops` and `draws` are the model's own fields (logs 3 and 7). -/
def Obligations.X87FlagCompares : Prop :=
  ∀ p ∈ fcomiRows, ∀ s : State,
    let o := fcompare (top0 s) (slot s (slotOf s s.stIndex.toNat))
    ∃ t : State, exec p.1 s = .next t ∧ t.zf = (o == .eq || o == .un) ∧ t.cf = (o == .lt || o == .un) ∧
      t.of = false ∧ FlagsSameBut [0, 6, 11] s t ∧ PoppedTimes (if p.2 then 1 else 0) s t ∧
      (∀ k : Nat, k < 11 ∨ 14 ≤ k → t.fpuStatus.getLsbD k = s.fpuStatus.getLsbD k) ∧
      RegsSame s t ∧ MemSame s t ∧ Ended s t s.next ∧ t.draws = s.draws

/-! ### Floating point -/

/-- R25: for finite operands the five operations give the exact sum, difference, product, quotient (by a non-zero
divisor) and square root (of a positive value), rounded to nearest, ties to even.
"Round to nearest, ties to even" is written out from IEEE 754 (log 16). -/
def Obligations.ArithmeticIsRounded : Prop :=
  let rounds (r : Option F64) (x : ℝ) : Prop := ∃ v : F64, r = some v ∧ RoundedTo x v
  ∀ a b : F64, isFinite a = true → isFinite b = true →
    rounds (fadd a b) ((numeric a : ℝ) + numeric b) ∧
    rounds (fsub a b) ((numeric a : ℝ) - numeric b) ∧
    rounds (fmul a b) ((numeric a : ℝ) * numeric b) ∧
    (numeric b ≠ 0 → rounds (fdiv a b) ((numeric a : ℝ) / numeric b)) ∧
    (0 < numeric a → rounds (fsqrt a) (Real.sqrt (numeric a)))

/-- R25, R475: `fcompare` is unordered iff a value is a NaN, and orders finite values as the numbers they stand for,
the two zeros being equal. -/
def Obligations.ComparisonIsNumeric : Prop :=
  ∀ a b : F64,
    (fcompare a b = .un ↔ isNan a = true ∨ isNan b = true) ∧
    (isFinite a = true → isFinite b = true →
      (fcompare a b = .lt ↔ numeric a < numeric b) ∧ (fcompare a b = .gt ↔ numeric b < numeric a) ∧
      (fcompare a b = .eq ↔ numeric a = numeric b))

/-- R402 to R404: the widening of a binary32 and the narrowing back give the same pattern, and so do the default
80-bit store and load, for every value that is no NaN; an integer converts to its nearest binary64 value, ties to even,
and exactly if its magnitude is at most 2^53. -/
def Obligations.ConversionsAreExact : Prop :=
  (∀ (p : BitVec 32) (v : F64), cvtF32ToF64 p = some v → cvtF64ToF32 v = p) ∧
  (∀ v : F64, isNan v = false → f80Load .roundedExact (f80Store .roundedExact v) = some v) ∧
  (∀ i : Int, RoundedTo i (cvtIntToF64 i)) ∧
  ∀ i : Int, i.natAbs ≤ 2 ^ 53 → numeric (cvtIntToF64 i) = i

/-- R410: an integer store truncates a finite value toward zero, and stores `FIST_OVERFLOW(W)` for a NaN, an infinity
and a truncated value outside the signed range of W bits. -/
def Obligations.IntegerConversionTruncates : Prop :=
  ∀ (w : Nat) (overflow : BitVec w) (v : F64), w ∈ [16, 32, 64] →
    (isFinite v = false → intConv overflow v = overflow) ∧
    (isFinite v = true →
      let t : Int := if 0 ≤ numeric v then ⌊numeric v⌋ else ⌈numeric v⌉
      intConv overflow v = if t < -2 ^ (w - 1) ∨ 2 ^ (w - 1) - 1 < t then overflow else BitVec.ofInt w t)

/-- R15, R25, R450, R463, R471: what IEEE 754 gives for infinities, zeros and NaNs.
The cases are IEEE 754's, which the spec names and does not write out (log 16). -/
def Obligations.FloatSpecialCases : Prop :=
  let inf (neg : Bool) : F64 := if neg then 0xFFF0000000000000#64 else 0x7FF0000000000000#64
  let zero (neg : Bool) : F64 := if neg then 0x8000000000000000#64 else 0x0000000000000000#64
  (∀ n : Nat, isNan (nanResult n) = true) ∧
  (∀ a b : F64, isNan a = true ∨ isNan b = true →
    fadd a b = none ∧ fsub a b = none ∧ fmul a b = none ∧ fdiv a b = none) ∧
  (∀ a : F64, isNan a = true → fsqrt a = none) ∧
  (∀ s : Bool, fadd (inf s) (inf (!s)) = none ∧ fsub (inf s) (inf s) = none ∧
    fadd (inf s) (inf s) = some (inf s)) ∧
  (∀ r s : Bool, fmul (zero r) (inf s) = none ∧ fmul (inf s) (zero r) = none ∧
    fdiv (zero r) (zero s) = none ∧ fdiv (inf r) (inf s) = none) ∧
  (∀ (a : F64) (s : Bool), isFinite a = true →
    fadd a (inf s) = some (inf s) ∧ fdiv a (inf s) = some (zero (a.msb ^^ s)) ∧
      fsub a a = some (zero false) ∧
      fmul a (zero s) = some (zero (a.msb ^^ s)) ∧
      (a ≠ zero true → a ≠ zero false →
        fdiv a (zero s) = some (inf (a.msb ^^ s)) ∧ (a.msb = true → fsqrt a = none))) ∧
  fadd (zero true) (zero false) = some (zero false) ∧ fadd (zero true) (zero true) = some (zero true) ∧
  fsqrt (zero true) = some (zero true) ∧ fsqrt (inf false) = some (inf false) ∧ fsqrt (inf true) = none

/-! ### Faults of operands -/

/-- R72, R503, R511, R512: every row that reads or writes its r/m operand, with that operand outside memory at the width
it is accessed, delivers that MemoryFault on the state before the instruction; and so do the moffs rows of MOV and the
accesses of the stack, after the operand where the row has one that is read first (the address and width for PUSHAD and
POPAD: log 13), and the string rows without a repeat prefix, at their first access outside memory (with one:
`RepeatUnfolds`). -/
def Obligations.OperandFaults : Prop :=
  (∀ (s : State) (m : MemOp) (n : Nat), s.ops.rm = .mem m → fits s (linearAddr s m) n = false →
    let faults (i : Instr) : Prop :=
      exec i s = .next (s.deliver (.memoryFault (linearAddr s m) n s.config.memSize s.eip))
    (∀ (op : AluOp) (f : AluForm), f ≠ .alib → f ≠ .eaxid → n = f.width / 8 → faults (aluInstr op f)) ∧
    (∀ p ∈ testForms, p.2 ≠ .alib → p.2 ≠ .eaxid → n = p.2.width / 8 → faults p.1) ∧
    (∀ f : UnForm, f ≠ .r32 → n = f.width / 8 → faults (incInstr f) ∧ faults (decInstr f)) ∧
    (∀ p ∈ negForms ++ notForms, n = p.2.width / 8 → faults p.1) ∧
    (∀ (op : ShiftOp) (wide : Bool) (c : CountForm), n = shiftWidth wide / 8 →
      faults (shiftInstr op wide c)) ∧
    (∀ wide : Bool, n = movWidth wide s / 8 →
      ∀ f ∈ [MovForm.toRm wide, .fromRm wide, .immRm wide], faults f.instr) ∧
    (n = 1 → (∀ i ∈ [Instr.movzxR32Rm8, .movsxR32Rm8, .mulRm8, .imulRm8, .divRm8, .idivRm8], faults i) ∧
      ∀ p ∈ setccRows, faults p.1) ∧
    (n = 2 → ∀ i ∈ [Instr.movzxR32Rm16, .movsxR32Rm16, .fldcwM16], faults i) ∧
    (n = 4 →
      (∀ i ∈ [Instr.lesR32M, .ldsR32M, .lssR32M, .lfsR32M, .lgsR32M, .mulRm32, .imulRm32, .divRm32, .idivRm32,
          .imulR32Rm32, .imulR32Rm32Id, .imulR32Rm32Ib, .bsfR32Rm32, .bsrR32Rm32, .jmpRm32, .callRm32, .pushRm32],
        faults i) ∧
      ∀ p ∈ cmovRows, faults p.1) ∧
    (∀ f : StoreForm, n = f.bytes → faults f.instr) ∧
    (∀ f : LoadForm, f.bytes ≠ 0 → n = f.bytes → faults f.instr) ∧
    (∀ (op : FpOp) (f : SrcForm), n = f.bytes → faults (fpMemInstr op f)) ∧
    ∀ (f : SrcForm) (pop : Bool), n = f.bytes → faults (fcomMemInstr f pop)) ∧
  ∀ s : State,
    let faults (a : Word) (n : Nat) (i : Instr) : Prop :=
      exec i s = .next (s.deliver (.memoryFault a n s.config.memSize s.eip))
    (∀ wide : Bool, fits s (resolveSeg s s.ops.moffs) (movWidth wide s / 8) = false →
      ∀ f ∈ [MovForm.fromMoffs wide, .toMoffs wide],
        faults (resolveSeg s s.ops.moffs) (movWidth wide s / 8) f.instr) ∧
    (fits s (s.gpr 4 - 4) 4 = false →
      (∀ i ∈ [Instr.pushR32, .pushId, .pushIb, .callRel32], faults (s.gpr 4 - 4) 4 i) ∧
      (rmFits 32 s = true → ∀ i ∈ [Instr.pushRm32, .callRm32], faults (s.gpr 4 - 4) 4 i)) ∧
    (fits s (s.gpr 4) 4 = false → ∀ i ∈ [Instr.popR32, .popRm32, .ret, .retIw], faults (s.gpr 4) 4 i) ∧
    (fits s (s.gpr 4) 4 = true → ∀ m : MemOp, s.ops.rm = .mem m →
      let a := linearAddr (s.setGpr 4 (s.gpr 4 + 4)) m
      fits s a 4 = false → faults a 4 .popRm32) ∧
    (s.rep = .none → ∀ (op : StringOp) (dword : Bool), op.fits dword s = false →
      faults (op.failedAddr dword s) (elemWidth dword / 8) (stringInstr op dword)) ∧
    (fits s (s.gpr 5) 4 = false → faults (s.gpr 5) 4 .leave) ∧
    (fits s (s.gpr 4 - 32) 32 = false → faults (s.gpr 4 - 32) 32 .pushad) ∧
    (fits s (s.gpr 4) 32 = false → faults (s.gpr 4) 32 .popad)
end

