-- ==== Sys2Proof/Laws/Memory.lean ====
section
/-! SUPPORT. What the memory operations do, and that each keeps the canonical form. -/

namespace Sys2Proof.Laws

open Sys2Proof.Machine

/-! ### Reading what was written -/

@[simp] theorem read_nil (a : Nat) : Memory.read [] a = 0 := rfl

theorem read_cons (c : Host.Cell) (rest : Memory) (a : Nat) :
    Memory.read (c :: rest) a = if c.1 = a then c.2 else Memory.read rest a := rfl

theorem mem_erase (m : Memory) (a : Nat) (c : Host.Cell) : c ∈ m.erase a ↔ c ∈ m ∧ c.1 ≠ a := by
  simp [Memory.erase]

theorem mem_insert (m : Memory) (a : Nat) (v : Byte) (c : Host.Cell) :
    c ∈ m.insert a v ↔ c = (a, v) ∨ c ∈ m := by
  induction m with
  | nil => simp [Memory.insert]
  | cons d rest ih =>
    unfold Memory.insert
    split
    · simp
    · simp only [List.mem_cons, ih]
      tauto

theorem read_erase (m : Memory) (a b : Nat) :
    (m.erase a).read b = if b = a then 0 else m.read b := by
  induction m with
  | nil => simp [Memory.erase]
  | cons c rest ih =>
    have step : Memory.erase (c :: rest) a = if c.1 = a then Memory.erase rest a else c :: Memory.erase rest a := by
      unfold Memory.erase
      rw [List.filter_cons]
      by_cases h : c.1 = a <;> simp [h]
    rw [step, read_cons]
    by_cases hc : c.1 = a <;> by_cases hb : b = a
    · rw [if_pos hc, ih, if_pos hb, if_pos hb]
    · simp [hc, hb, ih, Ne.symm hb]
    · subst hb; simp [hc, ih, read_cons]
    · simp [hc, hb, ih, read_cons]

theorem read_insert (m : Memory) (a b : Nat) (v : Byte) (h : ∀ c ∈ m, c.1 ≠ a) :
    (m.insert a v).read b = if b = a then v else m.read b := by
  induction m with
  | nil =>
    by_cases hb : b = a
    · simp [Memory.insert, read_cons, hb]
    · simp [Memory.insert, read_cons, hb, Ne.symm hb]
  | cons c rest ih =>
    have hc : c.1 ≠ a := h c (by simp)
    have ih := ih fun d hd => h d (by simp [hd])
    unfold Memory.insert
    split
    · by_cases hb : b = a
      · simp [read_cons, hb]
      · simp [read_cons, hb, Ne.symm hb]
    · by_cases hb : b = a
      · subst hb; simp [read_cons, ih, hc]
      · simp [read_cons, ih, hb]

/-- A byte stored at `a` is read there, and every other byte reads as before, in any memory. -/
theorem read_write (m : Memory) (a b : Nat) (v : Byte) :
    (m.write a v).read b = if b = a then v else m.read b := by
  unfold Memory.write
  split
  · rename_i hv
    rw [read_erase, hv]
  · rw [read_insert _ _ _ _ fun c hc => ((mem_erase m a c).1 hc).2, read_erase]
    split <;> rfl

@[simp] theorem read_write_self (m : Memory) (a : Nat) (v : Byte) : (m.write a v).read a = v := by
  simp [read_write]

theorem read_write_other (m : Memory) {a b : Nat} (v : Byte) (h : b ≠ a) :
    (m.write a v).read b = m.read b := by
  simp [read_write, h]

/-- `writeLE` writes its bytes, least significant first (R74), and nothing else. -/
theorem read_writeLE (n : Nat) : ∀ (m : Memory) (a v b : Nat),
    (m.writeLE a n v).read b =
      if a ≤ b ∧ b < a + n then BitVec.ofNat 8 (v / 256 ^ (b - a)) else m.read b := by
  induction n with
  | zero =>
    intro m a v b
    simp [Memory.writeLE]
  | succ k ih =>
    intro m a v b
    rw [Memory.writeLE, ih]
    by_cases hb : b = a
    · subst hb
      simp
    · rw [read_write_other _ _ hb]
      by_cases hin : a + 1 ≤ b ∧ b < a + 1 + k
      · have h2 : a ≤ b ∧ b < a + (k + 1) := by omega
        have h3 : b - a = (b - (a + 1)) + 1 := by omega
        rw [if_pos hin, if_pos h2, h3, pow_succ, mul_comm, Nat.div_div_eq_div_mul]
      · have h2 : ¬ (a ≤ b ∧ b < a + (k + 1)) := by omega
        rw [if_neg hin, if_neg h2]

/-- What `writeLE` leaves alone. -/
theorem read_writeLE_outside (m : Memory) (a n v b : Nat) (h : b < a ∨ a + n ≤ b) :
    (m.writeLE a n v).read b = m.read b := by
  rw [read_writeLE, if_neg (by omega)]

/-- `readLE` is below `256 ^ n`. -/
theorem readLE_lt (m : Memory) (n : Nat) : ∀ a, m.readLE a n < 256 ^ n := by
  induction n with
  | zero => intro a; simp [Memory.readLE]
  | succ k ih =>
    intro a
    have h1 := (m.read a).isLt
    have h2 := ih (a + 1)
    rw [Memory.readLE, pow_succ]
    omega

/-- `readLE` depends on its bytes alone. -/
theorem readLE_congr (m m' : Memory) (n : Nat) : ∀ a,
    (∀ b, a ≤ b → b < a + n → m.read b = m'.read b) → m.readLE a n = m'.readLE a n := by
  induction n with
  | zero => intro a _; rfl
  | succ k ih =>
    intro a h
    rw [Memory.readLE, Memory.readLE, h a (by omega) (by omega),
      ih (a + 1) fun b h1 h2 => h b (by omega) (by omega)]

/-- What `writeLE` stored is what `readLE` reads (R74). -/
theorem readLE_writeLE_self (n : Nat) : ∀ (m : Memory) (a v : Nat),
    (m.writeLE a n v).readLE a n = v % 256 ^ n := by
  induction n with
  | zero => intro m a v; simp [Memory.readLE, Nat.mod_one]
  | succ k ih =>
    intro m a v
    have hself : (((m.write a (BitVec.ofNat 8 v)).writeLE (a + 1) k (v / 256)).read a) = BitVec.ofNat 8 v := by
      rw [read_writeLE_outside _ _ _ _ _ (by omega), read_write_self]
    have hpow : 256 ^ (k + 1) = 256 * 256 ^ k := by rw [pow_succ, mul_comm]
    rw [Memory.writeLE, Memory.readLE, hself, ih, BitVec.toNat_ofNat, hpow, Nat.mod_mul]

/-- A range away from the stored bytes reads as before. -/
theorem readLE_writeLE_other (m : Memory) (a n v b k : Nat) (h : b + k ≤ a ∨ a + n ≤ b) :
    (m.writeLE a n v).readLE b k = m.readLE b k := by
  apply readLE_congr
  intro c h1 h2
  exact read_writeLE_outside _ _ _ _ _ (by omega)

/-! ### The canonical form -/

theorem erase_wf {m : Memory} (a : Nat) (h : m.wf) : (m.erase a).wf :=
  ⟨h.1.filter _, fun c hc => h.2 c ((mem_erase m a c).1 hc).1⟩

theorem insert_sorted {m : Memory} (a : Nat) (v : Byte) (h : m.Pairwise (fun a b => a.1 < b.1))
    (hne : ∀ c ∈ m, c.1 ≠ a) : (m.insert a v).Pairwise (fun a b => a.1 < b.1) := by
  induction m with
  | nil => simp [Memory.insert]
  | cons c rest ih =>
    rw [List.pairwise_cons] at h
    unfold Memory.insert
    split
    · rename_i hlt
      refine List.pairwise_cons.2 ⟨fun d hd => ?_, List.pairwise_cons.2 h⟩
      rcases List.mem_cons.1 hd with rfl | hd
      · exact hlt
      · exact lt_trans hlt (h.1 d hd)
    · rename_i hlt
      have hc := hne c (by simp)
      refine List.pairwise_cons.2 ⟨fun d hd => ?_, ih h.2 fun d hd => hne d (by simp [hd])⟩
      rcases (mem_insert rest a v d).1 hd with rfl | hd
      · show c.1 < a
        omega
      · exact h.1 d hd

/-- A store keeps the canonical form. -/
theorem write_wf {m : Memory} (a : Nat) (v : Byte) (h : m.wf) : (m.write a v).wf := by
  unfold Memory.write
  split
  · exact erase_wf a h
  · rename_i hv
    have he := erase_wf a h
    refine ⟨insert_sorted a v he.1 fun c hc => ((mem_erase m a c).1 hc).2, fun c hc => ?_⟩
    rcases (mem_insert _ a v c).1 hc with rfl | hc
    · exact hv
    · exact he.2 c hc

theorem writeLE_wf (n : Nat) : ∀ {m : Memory} (a v : Nat), m.wf → (m.writeLE a n v).wf := by
  induction n with
  | zero => intro m a v h; exact h
  | succ k ih => intro m a v h; exact ih _ _ (write_wf _ _ h)

/-- A store inside `[0, size)` lists no address outside it. -/
theorem write_within {m : Memory} {size a : Nat} (v : Byte) (h : m.within size) (ha : a < size) :
    (m.write a v).within size := by
  intro c hc
  unfold Memory.write at hc
  split at hc
  · exact h c ((mem_erase m a c).1 hc).1
  · rcases (mem_insert _ a v c).1 hc with rfl | hc
    · exact ha
    · exact h c ((mem_erase m a c).1 hc).1

theorem writeLE_within (n : Nat) : ∀ {m : Memory} {size a : Nat} (v : Nat), m.within size → a + n ≤ size →
    (m.writeLE a n v).within size := by
  induction n with
  | zero => intro m size a v h _; exact h
  | succ k ih => intro m size a v h ha; exact ih _ (write_within _ h (by omega)) (by omega)

/-- The memory a host handler leaves is canonical and inside `[0, size)`. -/
theorem memory_ok (h : HostImage) (size : Nat) : (h.memory size).wf ∧ (h.memory size).within size := by
  have key : ∀ (l : List Host.Cell) (m : Memory), m.wf ∧ m.within size →
      (l.foldl (fun m c => if c.1 < size then m.write c.1 c.2 else m) m).wf ∧
        Memory.within (l.foldl (fun m c => if c.1 < size then m.write c.1 c.2 else m) m) size := by
    intro l
    induction l with
    | nil => intro m hm; exact hm
    | cons c rest ih =>
      intro m hm
      apply ih
      beta_reduce
      by_cases hc : c.1 < size
      · rw [if_pos hc]
        exact ⟨write_wf c.1 c.2 hm.1, write_within c.2 hm.2 hc⟩
      · rw [if_neg hc]
        exact hm
  exact key _ _ ⟨⟨List.Pairwise.nil, by simp⟩, by simp [Memory.within]⟩

theorem copyBytes_wf (bytes : List Byte) : ∀ {m : Memory} (a : Nat), m.wf → (copyBytes m a bytes).wf := by
  induction bytes with
  | nil => intro m a h; exact h
  | cons b rest ih => intro m a h; exact ih _ (write_wf _ _ h)

theorem copyBytes_within (bytes : List Byte) : ∀ {m : Memory} {size a : Nat}, m.within size →
    a + bytes.length ≤ size → (copyBytes m a bytes).within size := by
  induction bytes with
  | nil => intro m size a h _; exact h
  | cons b rest ih =>
    intro m size a h ha
    rw [List.length_cons] at ha
    exact ih (write_within b h (by omega)) (by omega)

end Sys2Proof.Laws
end

