-- ==== Sys2Proof/Laws/State.lean ====
section
/-! SUPPORT. One lemma per field per update of the state. -/

namespace Sys2Proof.Laws

open Sys2Proof.Machine

/-! ### setGpr -/

@[simp] theorem setGpr_x (s : State) (i : Reg) (v : Word) : (s.setGpr i v).x = s.x.set i.toNat v i.isLt := rfl
@[simp] theorem setGpr_eip (s : State) (i : Reg) (v : Word) : (s.setGpr i v).eip = s.eip := rfl
@[simp] theorem setGpr_flags (s : State) (i : Reg) (v : Word) : (s.setGpr i v).flags = s.flags := rfl
@[simp] theorem setGpr_fpuStack (s : State) (i : Reg) (v : Word) : (s.setGpr i v).fpuStack = s.fpuStack := rfl
@[simp] theorem setGpr_fpuTop (s : State) (i : Reg) (v : Word) : (s.setGpr i v).fpuTop = s.fpuTop := rfl
@[simp] theorem setGpr_fpuStatus (s : State) (i : Reg) (v : Word) : (s.setGpr i v).fpuStatus = s.fpuStatus := rfl
@[simp] theorem setGpr_fpuControl (s : State) (i : Reg) (v : Word) : (s.setGpr i v).fpuControl = s.fpuControl := rfl
@[simp] theorem setGpr_fpuTag (s : State) (i : Reg) (v : Word) : (s.setGpr i v).fpuTag = s.fpuTag := rfl
@[simp] theorem setGpr_halted (s : State) (i : Reg) (v : Word) : (s.setGpr i v).halted = s.halted := rfl
@[simp] theorem setGpr_instrCount (s : State) (i : Reg) (v : Word) : (s.setGpr i v).instrCount = s.instrCount := rfl
@[simp] theorem setGpr_seg (s : State) (i : Reg) (v : Word) : (s.setGpr i v).seg = s.seg := rfl
@[simp] theorem setGpr_opsizeOverride (s : State) (i : Reg) (v : Word) : (s.setGpr i v).opsizeOverride = s.opsizeOverride := rfl
@[simp] theorem setGpr_rep (s : State) (i : Reg) (v : Word) : (s.setGpr i v).rep = s.rep := rfl
@[simp] theorem setGpr_next (s : State) (i : Reg) (v : Word) : (s.setGpr i v).next = s.next := rfl
@[simp] theorem setGpr_ops (s : State) (i : Reg) (v : Word) : (s.setGpr i v).ops = s.ops := rfl
@[simp] theorem setGpr_mem (s : State) (i : Reg) (v : Word) : (s.setGpr i v).mem = s.mem := rfl
@[simp] theorem setGpr_terminal (s : State) (i : Reg) (v : Word) : (s.setGpr i v).terminal = s.terminal := rfl
@[simp] theorem setGpr_config (s : State) (i : Reg) (v : Word) : (s.setGpr i v).config = s.config := rfl
@[simp] theorem setGpr_draws (s : State) (i : Reg) (v : Word) : (s.setGpr i v).draws = s.draws := rfl

/-! ### setR8 -/

@[simp] theorem setR8_eip (s : State) (i : Reg) (v : Byte) : (s.setR8 i v).eip = s.eip := by
  unfold State.setR8
  split <;> rfl
@[simp] theorem setR8_flags (s : State) (i : Reg) (v : Byte) : (s.setR8 i v).flags = s.flags := by
  unfold State.setR8
  split <;> rfl
@[simp] theorem setR8_fpuStack (s : State) (i : Reg) (v : Byte) : (s.setR8 i v).fpuStack = s.fpuStack := by
  unfold State.setR8
  split <;> rfl
@[simp] theorem setR8_fpuTop (s : State) (i : Reg) (v : Byte) : (s.setR8 i v).fpuTop = s.fpuTop := by
  unfold State.setR8
  split <;> rfl
@[simp] theorem setR8_fpuStatus (s : State) (i : Reg) (v : Byte) : (s.setR8 i v).fpuStatus = s.fpuStatus := by
  unfold State.setR8
  split <;> rfl
@[simp] theorem setR8_fpuControl (s : State) (i : Reg) (v : Byte) : (s.setR8 i v).fpuControl = s.fpuControl := by
  unfold State.setR8
  split <;> rfl
@[simp] theorem setR8_fpuTag (s : State) (i : Reg) (v : Byte) : (s.setR8 i v).fpuTag = s.fpuTag := by
  unfold State.setR8
  split <;> rfl
@[simp] theorem setR8_halted (s : State) (i : Reg) (v : Byte) : (s.setR8 i v).halted = s.halted := by
  unfold State.setR8
  split <;> rfl
@[simp] theorem setR8_instrCount (s : State) (i : Reg) (v : Byte) : (s.setR8 i v).instrCount = s.instrCount := by
  unfold State.setR8
  split <;> rfl
@[simp] theorem setR8_seg (s : State) (i : Reg) (v : Byte) : (s.setR8 i v).seg = s.seg := by
  unfold State.setR8
  split <;> rfl
@[simp] theorem setR8_opsizeOverride (s : State) (i : Reg) (v : Byte) : (s.setR8 i v).opsizeOverride = s.opsizeOverride := by
  unfold State.setR8
  split <;> rfl
@[simp] theorem setR8_rep (s : State) (i : Reg) (v : Byte) : (s.setR8 i v).rep = s.rep := by
  unfold State.setR8
  split <;> rfl
@[simp] theorem setR8_next (s : State) (i : Reg) (v : Byte) : (s.setR8 i v).next = s.next := by
  unfold State.setR8
  split <;> rfl
@[simp] theorem setR8_ops (s : State) (i : Reg) (v : Byte) : (s.setR8 i v).ops = s.ops := by
  unfold State.setR8
  split <;> rfl
@[simp] theorem setR8_mem (s : State) (i : Reg) (v : Byte) : (s.setR8 i v).mem = s.mem := by
  unfold State.setR8
  split <;> rfl
@[simp] theorem setR8_terminal (s : State) (i : Reg) (v : Byte) : (s.setR8 i v).terminal = s.terminal := by
  unfold State.setR8
  split <;> rfl
@[simp] theorem setR8_config (s : State) (i : Reg) (v : Byte) : (s.setR8 i v).config = s.config := by
  unfold State.setR8
  split <;> rfl
@[simp] theorem setR8_draws (s : State) (i : Reg) (v : Byte) : (s.setR8 i v).draws = s.draws := by
  unfold State.setR8
  split <;> rfl

/-! ### setR16 -/

@[simp] theorem setR16_eip (s : State) (i : Reg) (v : Half) : (s.setR16 i v).eip = s.eip := rfl
@[simp] theorem setR16_flags (s : State) (i : Reg) (v : Half) : (s.setR16 i v).flags = s.flags := rfl
@[simp] theorem setR16_fpuStack (s : State) (i : Reg) (v : Half) : (s.setR16 i v).fpuStack = s.fpuStack := rfl
@[simp] theorem setR16_fpuTop (s : State) (i : Reg) (v : Half) : (s.setR16 i v).fpuTop = s.fpuTop := rfl
@[simp] theorem setR16_fpuStatus (s : State) (i : Reg) (v : Half) : (s.setR16 i v).fpuStatus = s.fpuStatus := rfl
@[simp] theorem setR16_fpuControl (s : State) (i : Reg) (v : Half) : (s.setR16 i v).fpuControl = s.fpuControl := rfl
@[simp] theorem setR16_fpuTag (s : State) (i : Reg) (v : Half) : (s.setR16 i v).fpuTag = s.fpuTag := rfl
@[simp] theorem setR16_halted (s : State) (i : Reg) (v : Half) : (s.setR16 i v).halted = s.halted := rfl
@[simp] theorem setR16_instrCount (s : State) (i : Reg) (v : Half) : (s.setR16 i v).instrCount = s.instrCount := rfl
@[simp] theorem setR16_seg (s : State) (i : Reg) (v : Half) : (s.setR16 i v).seg = s.seg := rfl
@[simp] theorem setR16_opsizeOverride (s : State) (i : Reg) (v : Half) : (s.setR16 i v).opsizeOverride = s.opsizeOverride := rfl
@[simp] theorem setR16_rep (s : State) (i : Reg) (v : Half) : (s.setR16 i v).rep = s.rep := rfl
@[simp] theorem setR16_next (s : State) (i : Reg) (v : Half) : (s.setR16 i v).next = s.next := rfl
@[simp] theorem setR16_ops (s : State) (i : Reg) (v : Half) : (s.setR16 i v).ops = s.ops := rfl
@[simp] theorem setR16_mem (s : State) (i : Reg) (v : Half) : (s.setR16 i v).mem = s.mem := rfl
@[simp] theorem setR16_terminal (s : State) (i : Reg) (v : Half) : (s.setR16 i v).terminal = s.terminal := rfl
@[simp] theorem setR16_config (s : State) (i : Reg) (v : Half) : (s.setR16 i v).config = s.config := rfl
@[simp] theorem setR16_draws (s : State) (i : Reg) (v : Half) : (s.setR16 i v).draws = s.draws := rfl

/-! ### setCf -/

@[simp] theorem setCf_x (s : State) (b : Bool) : (s.setCf b).x = s.x := rfl
@[simp] theorem setCf_eip (s : State) (b : Bool) : (s.setCf b).eip = s.eip := rfl
@[simp] theorem setCf_flags (s : State) (b : Bool) : (s.setCf b).flags = setBit s.flags 0 b := rfl
@[simp] theorem setCf_fpuStack (s : State) (b : Bool) : (s.setCf b).fpuStack = s.fpuStack := rfl
@[simp] theorem setCf_fpuTop (s : State) (b : Bool) : (s.setCf b).fpuTop = s.fpuTop := rfl
@[simp] theorem setCf_fpuStatus (s : State) (b : Bool) : (s.setCf b).fpuStatus = s.fpuStatus := rfl
@[simp] theorem setCf_fpuControl (s : State) (b : Bool) : (s.setCf b).fpuControl = s.fpuControl := rfl
@[simp] theorem setCf_fpuTag (s : State) (b : Bool) : (s.setCf b).fpuTag = s.fpuTag := rfl
@[simp] theorem setCf_halted (s : State) (b : Bool) : (s.setCf b).halted = s.halted := rfl
@[simp] theorem setCf_instrCount (s : State) (b : Bool) : (s.setCf b).instrCount = s.instrCount := rfl
@[simp] theorem setCf_seg (s : State) (b : Bool) : (s.setCf b).seg = s.seg := rfl
@[simp] theorem setCf_opsizeOverride (s : State) (b : Bool) : (s.setCf b).opsizeOverride = s.opsizeOverride := rfl
@[simp] theorem setCf_rep (s : State) (b : Bool) : (s.setCf b).rep = s.rep := rfl
@[simp] theorem setCf_next (s : State) (b : Bool) : (s.setCf b).next = s.next := rfl
@[simp] theorem setCf_ops (s : State) (b : Bool) : (s.setCf b).ops = s.ops := rfl
@[simp] theorem setCf_mem (s : State) (b : Bool) : (s.setCf b).mem = s.mem := rfl
@[simp] theorem setCf_terminal (s : State) (b : Bool) : (s.setCf b).terminal = s.terminal := rfl
@[simp] theorem setCf_config (s : State) (b : Bool) : (s.setCf b).config = s.config := rfl
@[simp] theorem setCf_draws (s : State) (b : Bool) : (s.setCf b).draws = s.draws := rfl

/-! ### setZf -/

@[simp] theorem setZf_x (s : State) (b : Bool) : (s.setZf b).x = s.x := rfl
@[simp] theorem setZf_eip (s : State) (b : Bool) : (s.setZf b).eip = s.eip := rfl
@[simp] theorem setZf_flags (s : State) (b : Bool) : (s.setZf b).flags = setBit s.flags 6 b := rfl
@[simp] theorem setZf_fpuStack (s : State) (b : Bool) : (s.setZf b).fpuStack = s.fpuStack := rfl
@[simp] theorem setZf_fpuTop (s : State) (b : Bool) : (s.setZf b).fpuTop = s.fpuTop := rfl
@[simp] theorem setZf_fpuStatus (s : State) (b : Bool) : (s.setZf b).fpuStatus = s.fpuStatus := rfl
@[simp] theorem setZf_fpuControl (s : State) (b : Bool) : (s.setZf b).fpuControl = s.fpuControl := rfl
@[simp] theorem setZf_fpuTag (s : State) (b : Bool) : (s.setZf b).fpuTag = s.fpuTag := rfl
@[simp] theorem setZf_halted (s : State) (b : Bool) : (s.setZf b).halted = s.halted := rfl
@[simp] theorem setZf_instrCount (s : State) (b : Bool) : (s.setZf b).instrCount = s.instrCount := rfl
@[simp] theorem setZf_seg (s : State) (b : Bool) : (s.setZf b).seg = s.seg := rfl
@[simp] theorem setZf_opsizeOverride (s : State) (b : Bool) : (s.setZf b).opsizeOverride = s.opsizeOverride := rfl
@[simp] theorem setZf_rep (s : State) (b : Bool) : (s.setZf b).rep = s.rep := rfl
@[simp] theorem setZf_next (s : State) (b : Bool) : (s.setZf b).next = s.next := rfl
@[simp] theorem setZf_ops (s : State) (b : Bool) : (s.setZf b).ops = s.ops := rfl
@[simp] theorem setZf_mem (s : State) (b : Bool) : (s.setZf b).mem = s.mem := rfl
@[simp] theorem setZf_terminal (s : State) (b : Bool) : (s.setZf b).terminal = s.terminal := rfl
@[simp] theorem setZf_config (s : State) (b : Bool) : (s.setZf b).config = s.config := rfl
@[simp] theorem setZf_draws (s : State) (b : Bool) : (s.setZf b).draws = s.draws := rfl

/-! ### setSf -/

@[simp] theorem setSf_x (s : State) (b : Bool) : (s.setSf b).x = s.x := rfl
@[simp] theorem setSf_eip (s : State) (b : Bool) : (s.setSf b).eip = s.eip := rfl
@[simp] theorem setSf_flags (s : State) (b : Bool) : (s.setSf b).flags = setBit s.flags 7 b := rfl
@[simp] theorem setSf_fpuStack (s : State) (b : Bool) : (s.setSf b).fpuStack = s.fpuStack := rfl
@[simp] theorem setSf_fpuTop (s : State) (b : Bool) : (s.setSf b).fpuTop = s.fpuTop := rfl
@[simp] theorem setSf_fpuStatus (s : State) (b : Bool) : (s.setSf b).fpuStatus = s.fpuStatus := rfl
@[simp] theorem setSf_fpuControl (s : State) (b : Bool) : (s.setSf b).fpuControl = s.fpuControl := rfl
@[simp] theorem setSf_fpuTag (s : State) (b : Bool) : (s.setSf b).fpuTag = s.fpuTag := rfl
@[simp] theorem setSf_halted (s : State) (b : Bool) : (s.setSf b).halted = s.halted := rfl
@[simp] theorem setSf_instrCount (s : State) (b : Bool) : (s.setSf b).instrCount = s.instrCount := rfl
@[simp] theorem setSf_seg (s : State) (b : Bool) : (s.setSf b).seg = s.seg := rfl
@[simp] theorem setSf_opsizeOverride (s : State) (b : Bool) : (s.setSf b).opsizeOverride = s.opsizeOverride := rfl
@[simp] theorem setSf_rep (s : State) (b : Bool) : (s.setSf b).rep = s.rep := rfl
@[simp] theorem setSf_next (s : State) (b : Bool) : (s.setSf b).next = s.next := rfl
@[simp] theorem setSf_ops (s : State) (b : Bool) : (s.setSf b).ops = s.ops := rfl
@[simp] theorem setSf_mem (s : State) (b : Bool) : (s.setSf b).mem = s.mem := rfl
@[simp] theorem setSf_terminal (s : State) (b : Bool) : (s.setSf b).terminal = s.terminal := rfl
@[simp] theorem setSf_config (s : State) (b : Bool) : (s.setSf b).config = s.config := rfl
@[simp] theorem setSf_draws (s : State) (b : Bool) : (s.setSf b).draws = s.draws := rfl

/-! ### setDf -/

@[simp] theorem setDf_x (s : State) (b : Bool) : (s.setDf b).x = s.x := rfl
@[simp] theorem setDf_eip (s : State) (b : Bool) : (s.setDf b).eip = s.eip := rfl
@[simp] theorem setDf_flags (s : State) (b : Bool) : (s.setDf b).flags = setBit s.flags 10 b := rfl
@[simp] theorem setDf_fpuStack (s : State) (b : Bool) : (s.setDf b).fpuStack = s.fpuStack := rfl
@[simp] theorem setDf_fpuTop (s : State) (b : Bool) : (s.setDf b).fpuTop = s.fpuTop := rfl
@[simp] theorem setDf_fpuStatus (s : State) (b : Bool) : (s.setDf b).fpuStatus = s.fpuStatus := rfl
@[simp] theorem setDf_fpuControl (s : State) (b : Bool) : (s.setDf b).fpuControl = s.fpuControl := rfl
@[simp] theorem setDf_fpuTag (s : State) (b : Bool) : (s.setDf b).fpuTag = s.fpuTag := rfl
@[simp] theorem setDf_halted (s : State) (b : Bool) : (s.setDf b).halted = s.halted := rfl
@[simp] theorem setDf_instrCount (s : State) (b : Bool) : (s.setDf b).instrCount = s.instrCount := rfl
@[simp] theorem setDf_seg (s : State) (b : Bool) : (s.setDf b).seg = s.seg := rfl
@[simp] theorem setDf_opsizeOverride (s : State) (b : Bool) : (s.setDf b).opsizeOverride = s.opsizeOverride := rfl
@[simp] theorem setDf_rep (s : State) (b : Bool) : (s.setDf b).rep = s.rep := rfl
@[simp] theorem setDf_next (s : State) (b : Bool) : (s.setDf b).next = s.next := rfl
@[simp] theorem setDf_ops (s : State) (b : Bool) : (s.setDf b).ops = s.ops := rfl
@[simp] theorem setDf_mem (s : State) (b : Bool) : (s.setDf b).mem = s.mem := rfl
@[simp] theorem setDf_terminal (s : State) (b : Bool) : (s.setDf b).terminal = s.terminal := rfl
@[simp] theorem setDf_config (s : State) (b : Bool) : (s.setDf b).config = s.config := rfl
@[simp] theorem setDf_draws (s : State) (b : Bool) : (s.setDf b).draws = s.draws := rfl

/-! ### setOf -/

@[simp] theorem setOf_x (s : State) (b : Bool) : (s.setOf b).x = s.x := rfl
@[simp] theorem setOf_eip (s : State) (b : Bool) : (s.setOf b).eip = s.eip := rfl
@[simp] theorem setOf_flags (s : State) (b : Bool) : (s.setOf b).flags = setBit s.flags 11 b := rfl
@[simp] theorem setOf_fpuStack (s : State) (b : Bool) : (s.setOf b).fpuStack = s.fpuStack := rfl
@[simp] theorem setOf_fpuTop (s : State) (b : Bool) : (s.setOf b).fpuTop = s.fpuTop := rfl
@[simp] theorem setOf_fpuStatus (s : State) (b : Bool) : (s.setOf b).fpuStatus = s.fpuStatus := rfl
@[simp] theorem setOf_fpuControl (s : State) (b : Bool) : (s.setOf b).fpuControl = s.fpuControl := rfl
@[simp] theorem setOf_fpuTag (s : State) (b : Bool) : (s.setOf b).fpuTag = s.fpuTag := rfl
@[simp] theorem setOf_halted (s : State) (b : Bool) : (s.setOf b).halted = s.halted := rfl
@[simp] theorem setOf_instrCount (s : State) (b : Bool) : (s.setOf b).instrCount = s.instrCount := rfl
@[simp] theorem setOf_seg (s : State) (b : Bool) : (s.setOf b).seg = s.seg := rfl
@[simp] theorem setOf_opsizeOverride (s : State) (b : Bool) : (s.setOf b).opsizeOverride = s.opsizeOverride := rfl
@[simp] theorem setOf_rep (s : State) (b : Bool) : (s.setOf b).rep = s.rep := rfl
@[simp] theorem setOf_next (s : State) (b : Bool) : (s.setOf b).next = s.next := rfl
@[simp] theorem setOf_ops (s : State) (b : Bool) : (s.setOf b).ops = s.ops := rfl
@[simp] theorem setOf_mem (s : State) (b : Bool) : (s.setOf b).mem = s.mem := rfl
@[simp] theorem setOf_terminal (s : State) (b : Bool) : (s.setOf b).terminal = s.terminal := rfl
@[simp] theorem setOf_config (s : State) (b : Bool) : (s.setOf b).config = s.config := rfl
@[simp] theorem setOf_draws (s : State) (b : Bool) : (s.setOf b).draws = s.draws := rfl

/-! ### setSlot -/

@[simp] theorem setSlot_x (s : State) (p : BitVec 3) (v : F64) : (s.setSlot p v).x = s.x := rfl
@[simp] theorem setSlot_eip (s : State) (p : BitVec 3) (v : F64) : (s.setSlot p v).eip = s.eip := rfl
@[simp] theorem setSlot_flags (s : State) (p : BitVec 3) (v : F64) : (s.setSlot p v).flags = s.flags := rfl
@[simp] theorem setSlot_fpuStack (s : State) (p : BitVec 3) (v : F64) : (s.setSlot p v).fpuStack = s.fpuStack.set p.toNat v p.isLt := rfl
@[simp] theorem setSlot_fpuTop (s : State) (p : BitVec 3) (v : F64) : (s.setSlot p v).fpuTop = s.fpuTop := rfl
@[simp] theorem setSlot_fpuStatus (s : State) (p : BitVec 3) (v : F64) : (s.setSlot p v).fpuStatus = s.fpuStatus := rfl
@[simp] theorem setSlot_fpuControl (s : State) (p : BitVec 3) (v : F64) : (s.setSlot p v).fpuControl = s.fpuControl := rfl
@[simp] theorem setSlot_fpuTag (s : State) (p : BitVec 3) (v : F64) : (s.setSlot p v).fpuTag = s.fpuTag := rfl
@[simp] theorem setSlot_halted (s : State) (p : BitVec 3) (v : F64) : (s.setSlot p v).halted = s.halted := rfl
@[simp] theorem setSlot_instrCount (s : State) (p : BitVec 3) (v : F64) : (s.setSlot p v).instrCount = s.instrCount := rfl
@[simp] theorem setSlot_seg (s : State) (p : BitVec 3) (v : F64) : (s.setSlot p v).seg = s.seg := rfl
@[simp] theorem setSlot_opsizeOverride (s : State) (p : BitVec 3) (v : F64) : (s.setSlot p v).opsizeOverride = s.opsizeOverride := rfl
@[simp] theorem setSlot_rep (s : State) (p : BitVec 3) (v : F64) : (s.setSlot p v).rep = s.rep := rfl
@[simp] theorem setSlot_next (s : State) (p : BitVec 3) (v : F64) : (s.setSlot p v).next = s.next := rfl
@[simp] theorem setSlot_ops (s : State) (p : BitVec 3) (v : F64) : (s.setSlot p v).ops = s.ops := rfl
@[simp] theorem setSlot_mem (s : State) (p : BitVec 3) (v : F64) : (s.setSlot p v).mem = s.mem := rfl
@[simp] theorem setSlot_terminal (s : State) (p : BitVec 3) (v : F64) : (s.setSlot p v).terminal = s.terminal := rfl
@[simp] theorem setSlot_config (s : State) (p : BitVec 3) (v : F64) : (s.setSlot p v).config = s.config := rfl
@[simp] theorem setSlot_draws (s : State) (p : BitVec 3) (v : F64) : (s.setSlot p v).draws = s.draws := rfl

/-! ### setSt -/

@[simp] theorem setSt_x (s : State) (i : Reg) (v : F64) : (s.setSt i v).x = s.x := rfl
@[simp] theorem setSt_eip (s : State) (i : Reg) (v : F64) : (s.setSt i v).eip = s.eip := rfl
@[simp] theorem setSt_flags (s : State) (i : Reg) (v : F64) : (s.setSt i v).flags = s.flags := rfl
@[simp] theorem setSt_fpuStack (s : State) (i : Reg) (v : F64) : (s.setSt i v).fpuStack = s.fpuStack.set (s.phys i).toNat v (s.phys i).isLt := rfl
@[simp] theorem setSt_fpuTop (s : State) (i : Reg) (v : F64) : (s.setSt i v).fpuTop = s.fpuTop := rfl
@[simp] theorem setSt_fpuStatus (s : State) (i : Reg) (v : F64) : (s.setSt i v).fpuStatus = s.fpuStatus := rfl
@[simp] theorem setSt_fpuControl (s : State) (i : Reg) (v : F64) : (s.setSt i v).fpuControl = s.fpuControl := rfl
@[simp] theorem setSt_fpuTag (s : State) (i : Reg) (v : F64) : (s.setSt i v).fpuTag = s.fpuTag := rfl
@[simp] theorem setSt_halted (s : State) (i : Reg) (v : F64) : (s.setSt i v).halted = s.halted := rfl
@[simp] theorem setSt_instrCount (s : State) (i : Reg) (v : F64) : (s.setSt i v).instrCount = s.instrCount := rfl
@[simp] theorem setSt_seg (s : State) (i : Reg) (v : F64) : (s.setSt i v).seg = s.seg := rfl
@[simp] theorem setSt_opsizeOverride (s : State) (i : Reg) (v : F64) : (s.setSt i v).opsizeOverride = s.opsizeOverride := rfl
@[simp] theorem setSt_rep (s : State) (i : Reg) (v : F64) : (s.setSt i v).rep = s.rep := rfl
@[simp] theorem setSt_next (s : State) (i : Reg) (v : F64) : (s.setSt i v).next = s.next := rfl
@[simp] theorem setSt_ops (s : State) (i : Reg) (v : F64) : (s.setSt i v).ops = s.ops := rfl
@[simp] theorem setSt_mem (s : State) (i : Reg) (v : F64) : (s.setSt i v).mem = s.mem := rfl
@[simp] theorem setSt_terminal (s : State) (i : Reg) (v : F64) : (s.setSt i v).terminal = s.terminal := rfl
@[simp] theorem setSt_config (s : State) (i : Reg) (v : F64) : (s.setSt i v).config = s.config := rfl
@[simp] theorem setSt_draws (s : State) (i : Reg) (v : F64) : (s.setSt i v).draws = s.draws := rfl

/-! ### setTag -/

@[simp] theorem setTag_x (s : State) (p : BitVec 3) (t : BitVec 2) : (s.setTag p t).x = s.x := rfl
@[simp] theorem setTag_eip (s : State) (p : BitVec 3) (t : BitVec 2) : (s.setTag p t).eip = s.eip := rfl
@[simp] theorem setTag_flags (s : State) (p : BitVec 3) (t : BitVec 2) : (s.setTag p t).flags = s.flags := rfl
@[simp] theorem setTag_fpuStack (s : State) (p : BitVec 3) (t : BitVec 2) : (s.setTag p t).fpuStack = s.fpuStack := rfl
@[simp] theorem setTag_fpuTop (s : State) (p : BitVec 3) (t : BitVec 2) : (s.setTag p t).fpuTop = s.fpuTop := rfl
@[simp] theorem setTag_fpuStatus (s : State) (p : BitVec 3) (t : BitVec 2) : (s.setTag p t).fpuStatus = s.fpuStatus := rfl
@[simp] theorem setTag_fpuControl (s : State) (p : BitVec 3) (t : BitVec 2) : (s.setTag p t).fpuControl = s.fpuControl := rfl
@[simp] theorem setTag_halted (s : State) (p : BitVec 3) (t : BitVec 2) : (s.setTag p t).halted = s.halted := rfl
@[simp] theorem setTag_instrCount (s : State) (p : BitVec 3) (t : BitVec 2) : (s.setTag p t).instrCount = s.instrCount := rfl
@[simp] theorem setTag_seg (s : State) (p : BitVec 3) (t : BitVec 2) : (s.setTag p t).seg = s.seg := rfl
@[simp] theorem setTag_opsizeOverride (s : State) (p : BitVec 3) (t : BitVec 2) : (s.setTag p t).opsizeOverride = s.opsizeOverride := rfl
@[simp] theorem setTag_rep (s : State) (p : BitVec 3) (t : BitVec 2) : (s.setTag p t).rep = s.rep := rfl
@[simp] theorem setTag_next (s : State) (p : BitVec 3) (t : BitVec 2) : (s.setTag p t).next = s.next := rfl
@[simp] theorem setTag_ops (s : State) (p : BitVec 3) (t : BitVec 2) : (s.setTag p t).ops = s.ops := rfl
@[simp] theorem setTag_mem (s : State) (p : BitVec 3) (t : BitVec 2) : (s.setTag p t).mem = s.mem := rfl
@[simp] theorem setTag_terminal (s : State) (p : BitVec 3) (t : BitVec 2) : (s.setTag p t).terminal = s.terminal := rfl
@[simp] theorem setTag_config (s : State) (p : BitVec 3) (t : BitVec 2) : (s.setTag p t).config = s.config := rfl
@[simp] theorem setTag_draws (s : State) (p : BitVec 3) (t : BitVec 2) : (s.setTag p t).draws = s.draws := rfl

/-! ### setTop -/

@[simp] theorem setTop_x (s : State) (t : BitVec 3) : (s.setTop t).x = s.x := rfl
@[simp] theorem setTop_eip (s : State) (t : BitVec 3) : (s.setTop t).eip = s.eip := rfl
@[simp] theorem setTop_flags (s : State) (t : BitVec 3) : (s.setTop t).flags = s.flags := rfl
@[simp] theorem setTop_fpuStack (s : State) (t : BitVec 3) : (s.setTop t).fpuStack = s.fpuStack := rfl
@[simp] theorem setTop_fpuTop (s : State) (t : BitVec 3) : (s.setTop t).fpuTop = t := rfl
@[simp] theorem setTop_fpuStatus (s : State) (t : BitVec 3) : (s.setTop t).fpuStatus = withTop s.fpuStatus t := rfl
@[simp] theorem setTop_fpuControl (s : State) (t : BitVec 3) : (s.setTop t).fpuControl = s.fpuControl := rfl
@[simp] theorem setTop_fpuTag (s : State) (t : BitVec 3) : (s.setTop t).fpuTag = s.fpuTag := rfl
@[simp] theorem setTop_halted (s : State) (t : BitVec 3) : (s.setTop t).halted = s.halted := rfl
@[simp] theorem setTop_instrCount (s : State) (t : BitVec 3) : (s.setTop t).instrCount = s.instrCount := rfl
@[simp] theorem setTop_seg (s : State) (t : BitVec 3) : (s.setTop t).seg = s.seg := rfl
@[simp] theorem setTop_opsizeOverride (s : State) (t : BitVec 3) : (s.setTop t).opsizeOverride = s.opsizeOverride := rfl
@[simp] theorem setTop_rep (s : State) (t : BitVec 3) : (s.setTop t).rep = s.rep := rfl
@[simp] theorem setTop_next (s : State) (t : BitVec 3) : (s.setTop t).next = s.next := rfl
@[simp] theorem setTop_ops (s : State) (t : BitVec 3) : (s.setTop t).ops = s.ops := rfl
@[simp] theorem setTop_mem (s : State) (t : BitVec 3) : (s.setTop t).mem = s.mem := rfl
@[simp] theorem setTop_terminal (s : State) (t : BitVec 3) : (s.setTop t).terminal = s.terminal := rfl
@[simp] theorem setTop_config (s : State) (t : BitVec 3) : (s.setTop t).config = s.config := rfl
@[simp] theorem setTop_draws (s : State) (t : BitVec 3) : (s.setTop t).draws = s.draws := rfl

/-! ### fpush -/

@[simp] theorem fpush_x (s : State) (v : F64) : (s.fpush v).x = s.x := rfl
@[simp] theorem fpush_eip (s : State) (v : F64) : (s.fpush v).eip = s.eip := rfl
@[simp] theorem fpush_flags (s : State) (v : F64) : (s.fpush v).flags = s.flags := rfl
@[simp] theorem fpush_fpuStack (s : State) (v : F64) : (s.fpush v).fpuStack = s.fpuStack.set (s.fpuTop - 1).toNat v (s.fpuTop - 1).isLt := rfl
@[simp] theorem fpush_fpuTop (s : State) (v : F64) : (s.fpush v).fpuTop = s.fpuTop - 1 := rfl
@[simp] theorem fpush_fpuStatus (s : State) (v : F64) : (s.fpush v).fpuStatus = withTop s.fpuStatus (s.fpuTop - 1) := rfl
@[simp] theorem fpush_fpuControl (s : State) (v : F64) : (s.fpush v).fpuControl = s.fpuControl := rfl
@[simp] theorem fpush_halted (s : State) (v : F64) : (s.fpush v).halted = s.halted := rfl
@[simp] theorem fpush_instrCount (s : State) (v : F64) : (s.fpush v).instrCount = s.instrCount := rfl
@[simp] theorem fpush_seg (s : State) (v : F64) : (s.fpush v).seg = s.seg := rfl
@[simp] theorem fpush_opsizeOverride (s : State) (v : F64) : (s.fpush v).opsizeOverride = s.opsizeOverride := rfl
@[simp] theorem fpush_rep (s : State) (v : F64) : (s.fpush v).rep = s.rep := rfl
@[simp] theorem fpush_next (s : State) (v : F64) : (s.fpush v).next = s.next := rfl
@[simp] theorem fpush_ops (s : State) (v : F64) : (s.fpush v).ops = s.ops := rfl
@[simp] theorem fpush_mem (s : State) (v : F64) : (s.fpush v).mem = s.mem := rfl
@[simp] theorem fpush_terminal (s : State) (v : F64) : (s.fpush v).terminal = s.terminal := rfl
@[simp] theorem fpush_config (s : State) (v : F64) : (s.fpush v).config = s.config := rfl
@[simp] theorem fpush_draws (s : State) (v : F64) : (s.fpush v).draws = s.draws := rfl

/-! ### fpop -/

@[simp] theorem fpop_x (s : State) : (s.fpop).x = s.x := rfl
@[simp] theorem fpop_eip (s : State) : (s.fpop).eip = s.eip := rfl
@[simp] theorem fpop_flags (s : State) : (s.fpop).flags = s.flags := rfl
@[simp] theorem fpop_fpuStack (s : State) : (s.fpop).fpuStack = s.fpuStack := rfl
@[simp] theorem fpop_fpuTop (s : State) : (s.fpop).fpuTop = s.fpuTop + 1 := rfl
@[simp] theorem fpop_fpuStatus (s : State) : (s.fpop).fpuStatus = withTop s.fpuStatus (s.fpuTop + 1) := rfl
@[simp] theorem fpop_fpuControl (s : State) : (s.fpop).fpuControl = s.fpuControl := rfl
@[simp] theorem fpop_halted (s : State) : (s.fpop).halted = s.halted := rfl
@[simp] theorem fpop_instrCount (s : State) : (s.fpop).instrCount = s.instrCount := rfl
@[simp] theorem fpop_seg (s : State) : (s.fpop).seg = s.seg := rfl
@[simp] theorem fpop_opsizeOverride (s : State) : (s.fpop).opsizeOverride = s.opsizeOverride := rfl
@[simp] theorem fpop_rep (s : State) : (s.fpop).rep = s.rep := rfl
@[simp] theorem fpop_next (s : State) : (s.fpop).next = s.next := rfl
@[simp] theorem fpop_ops (s : State) : (s.fpop).ops = s.ops := rfl
@[simp] theorem fpop_mem (s : State) : (s.fpop).mem = s.mem := rfl
@[simp] theorem fpop_terminal (s : State) : (s.fpop).terminal = s.terminal := rfl
@[simp] theorem fpop_config (s : State) : (s.fpop).config = s.config := rfl
@[simp] theorem fpop_draws (s : State) : (s.fpop).draws = s.draws := rfl

/-! ### clearDecode -/

@[simp] theorem clearDecode_x (s : State) : (s.clearDecode).x = s.x := rfl
@[simp] theorem clearDecode_eip (s : State) : (s.clearDecode).eip = s.eip := rfl
@[simp] theorem clearDecode_flags (s : State) : (s.clearDecode).flags = s.flags := rfl
@[simp] theorem clearDecode_fpuStack (s : State) : (s.clearDecode).fpuStack = s.fpuStack := rfl
@[simp] theorem clearDecode_fpuTop (s : State) : (s.clearDecode).fpuTop = s.fpuTop := rfl
@[simp] theorem clearDecode_fpuStatus (s : State) : (s.clearDecode).fpuStatus = s.fpuStatus := rfl
@[simp] theorem clearDecode_fpuControl (s : State) : (s.clearDecode).fpuControl = s.fpuControl := rfl
@[simp] theorem clearDecode_fpuTag (s : State) : (s.clearDecode).fpuTag = s.fpuTag := rfl
@[simp] theorem clearDecode_halted (s : State) : (s.clearDecode).halted = s.halted := rfl
@[simp] theorem clearDecode_instrCount (s : State) : (s.clearDecode).instrCount = s.instrCount := rfl
@[simp] theorem clearDecode_seg (s : State) : (s.clearDecode).seg = .none := rfl
@[simp] theorem clearDecode_opsizeOverride (s : State) : (s.clearDecode).opsizeOverride = false := rfl
@[simp] theorem clearDecode_rep (s : State) : (s.clearDecode).rep = .none := rfl
@[simp] theorem clearDecode_next (s : State) : (s.clearDecode).next = 0 := rfl
@[simp] theorem clearDecode_ops (s : State) : (s.clearDecode).ops = noOperands := rfl
@[simp] theorem clearDecode_mem (s : State) : (s.clearDecode).mem = s.mem := rfl
@[simp] theorem clearDecode_terminal (s : State) : (s.clearDecode).terminal = s.terminal := rfl
@[simp] theorem clearDecode_config (s : State) : (s.clearDecode).config = s.config := rfl
@[simp] theorem clearDecode_draws (s : State) : (s.clearDecode).draws = s.draws := rfl

/-! ### retire -/

@[simp] theorem retire_x (s : State) : (s.retire).x = s.x := rfl
@[simp] theorem retire_eip (s : State) : (s.retire).eip = s.eip := rfl
@[simp] theorem retire_flags (s : State) : (s.retire).flags = s.flags := rfl
@[simp] theorem retire_fpuStack (s : State) : (s.retire).fpuStack = s.fpuStack := rfl
@[simp] theorem retire_fpuTop (s : State) : (s.retire).fpuTop = s.fpuTop := rfl
@[simp] theorem retire_fpuStatus (s : State) : (s.retire).fpuStatus = s.fpuStatus := rfl
@[simp] theorem retire_fpuControl (s : State) : (s.retire).fpuControl = s.fpuControl := rfl
@[simp] theorem retire_fpuTag (s : State) : (s.retire).fpuTag = s.fpuTag := rfl
@[simp] theorem retire_halted (s : State) : (s.retire).halted = s.halted := rfl
@[simp] theorem retire_instrCount (s : State) : (s.retire).instrCount = s.instrCount + 1 := rfl
@[simp] theorem retire_seg (s : State) : (s.retire).seg = .none := rfl
@[simp] theorem retire_opsizeOverride (s : State) : (s.retire).opsizeOverride = false := rfl
@[simp] theorem retire_rep (s : State) : (s.retire).rep = .none := rfl
@[simp] theorem retire_next (s : State) : (s.retire).next = 0 := rfl
@[simp] theorem retire_ops (s : State) : (s.retire).ops = noOperands := rfl
@[simp] theorem retire_mem (s : State) : (s.retire).mem = s.mem := rfl
@[simp] theorem retire_terminal (s : State) : (s.retire).terminal = s.terminal := rfl
@[simp] theorem retire_config (s : State) : (s.retire).config = s.config := rfl
@[simp] theorem retire_draws (s : State) : (s.retire).draws = s.draws := rfl

/-! ### jump -/

@[simp] theorem jump_x (s : State) (target : Word) : (s.jump target).x = s.x := rfl
@[simp] theorem jump_eip (s : State) (target : Word) : (s.jump target).eip = target := rfl
@[simp] theorem jump_flags (s : State) (target : Word) : (s.jump target).flags = s.flags := rfl
@[simp] theorem jump_fpuStack (s : State) (target : Word) : (s.jump target).fpuStack = s.fpuStack := rfl
@[simp] theorem jump_fpuTop (s : State) (target : Word) : (s.jump target).fpuTop = s.fpuTop := rfl
@[simp] theorem jump_fpuStatus (s : State) (target : Word) : (s.jump target).fpuStatus = s.fpuStatus := rfl
@[simp] theorem jump_fpuControl (s : State) (target : Word) : (s.jump target).fpuControl = s.fpuControl := rfl
@[simp] theorem jump_fpuTag (s : State) (target : Word) : (s.jump target).fpuTag = s.fpuTag := rfl
@[simp] theorem jump_halted (s : State) (target : Word) : (s.jump target).halted = s.halted := rfl
@[simp] theorem jump_instrCount (s : State) (target : Word) : (s.jump target).instrCount = s.instrCount + 1 := rfl
@[simp] theorem jump_seg (s : State) (target : Word) : (s.jump target).seg = .none := rfl
@[simp] theorem jump_opsizeOverride (s : State) (target : Word) : (s.jump target).opsizeOverride = false := rfl
@[simp] theorem jump_rep (s : State) (target : Word) : (s.jump target).rep = .none := rfl
@[simp] theorem jump_next (s : State) (target : Word) : (s.jump target).next = 0 := rfl
@[simp] theorem jump_ops (s : State) (target : Word) : (s.jump target).ops = noOperands := rfl
@[simp] theorem jump_mem (s : State) (target : Word) : (s.jump target).mem = s.mem := rfl
@[simp] theorem jump_terminal (s : State) (target : Word) : (s.jump target).terminal = s.terminal := rfl
@[simp] theorem jump_config (s : State) (target : Word) : (s.jump target).config = s.config := rfl
@[simp] theorem jump_draws (s : State) (target : Word) : (s.jump target).draws = s.draws := rfl

/-! ### complete -/

@[simp] theorem complete_x (s : State) : (s.complete).x = s.x := rfl
@[simp] theorem complete_eip (s : State) : (s.complete).eip = s.next := rfl
@[simp] theorem complete_flags (s : State) : (s.complete).flags = s.flags := rfl
@[simp] theorem complete_fpuStack (s : State) : (s.complete).fpuStack = s.fpuStack := rfl
@[simp] theorem complete_fpuTop (s : State) : (s.complete).fpuTop = s.fpuTop := rfl
@[simp] theorem complete_fpuStatus (s : State) : (s.complete).fpuStatus = s.fpuStatus := rfl
@[simp] theorem complete_fpuControl (s : State) : (s.complete).fpuControl = s.fpuControl := rfl
@[simp] theorem complete_fpuTag (s : State) : (s.complete).fpuTag = s.fpuTag := rfl
@[simp] theorem complete_halted (s : State) : (s.complete).halted = s.halted := rfl
@[simp] theorem complete_instrCount (s : State) : (s.complete).instrCount = s.instrCount + 1 := rfl
@[simp] theorem complete_seg (s : State) : (s.complete).seg = .none := rfl
@[simp] theorem complete_opsizeOverride (s : State) : (s.complete).opsizeOverride = false := rfl
@[simp] theorem complete_rep (s : State) : (s.complete).rep = .none := rfl
@[simp] theorem complete_next (s : State) : (s.complete).next = 0 := rfl
@[simp] theorem complete_ops (s : State) : (s.complete).ops = noOperands := rfl
@[simp] theorem complete_mem (s : State) : (s.complete).mem = s.mem := rfl
@[simp] theorem complete_terminal (s : State) : (s.complete).terminal = s.terminal := rfl
@[simp] theorem complete_config (s : State) : (s.complete).config = s.config := rfl
@[simp] theorem complete_draws (s : State) : (s.complete).draws = s.draws := rfl

/-! ### enter -/

@[simp] theorem enter_x (s : State) (c : Code) (a : Word) : (s.enter c a).x = s.x := rfl
@[simp] theorem enter_eip (s : State) (c : Code) (a : Word) : (s.enter c a).eip = s.eip := rfl
@[simp] theorem enter_flags (s : State) (c : Code) (a : Word) : (s.enter c a).flags = s.flags := rfl
@[simp] theorem enter_fpuStack (s : State) (c : Code) (a : Word) : (s.enter c a).fpuStack = s.fpuStack := rfl
@[simp] theorem enter_fpuTop (s : State) (c : Code) (a : Word) : (s.enter c a).fpuTop = s.fpuTop := rfl
@[simp] theorem enter_fpuStatus (s : State) (c : Code) (a : Word) : (s.enter c a).fpuStatus = s.fpuStatus := rfl
@[simp] theorem enter_fpuControl (s : State) (c : Code) (a : Word) : (s.enter c a).fpuControl = s.fpuControl := rfl
@[simp] theorem enter_fpuTag (s : State) (c : Code) (a : Word) : (s.enter c a).fpuTag = s.fpuTag := rfl
@[simp] theorem enter_halted (s : State) (c : Code) (a : Word) : (s.enter c a).halted = s.halted := rfl
@[simp] theorem enter_instrCount (s : State) (c : Code) (a : Word) : (s.enter c a).instrCount = s.instrCount := rfl
@[simp] theorem enter_seg (s : State) (c : Code) (a : Word) : (s.enter c a).seg = c.prefixes.seg := rfl
@[simp] theorem enter_opsizeOverride (s : State) (c : Code) (a : Word) : (s.enter c a).opsizeOverride = c.prefixes.opsizeOverride := rfl
@[simp] theorem enter_rep (s : State) (c : Code) (a : Word) : (s.enter c a).rep = c.prefixes.rep := rfl
@[simp] theorem enter_next (s : State) (c : Code) (a : Word) : (s.enter c a).next = a := rfl
@[simp] theorem enter_ops (s : State) (c : Code) (a : Word) : (s.enter c a).ops = c.ops := rfl
@[simp] theorem enter_mem (s : State) (c : Code) (a : Word) : (s.enter c a).mem = s.mem := rfl
@[simp] theorem enter_terminal (s : State) (c : Code) (a : Word) : (s.enter c a).terminal = s.terminal := rfl
@[simp] theorem enter_config (s : State) (c : Code) (a : Word) : (s.enter c a).config = s.config := rfl
@[simp] theorem enter_draws (s : State) (c : Code) (a : Word) : (s.enter c a).draws = s.draws := rfl

/-! ### applyHost -/

@[simp] theorem applyHost_x (s : State) (h : HostImage) : (s.applyHost h).x = h.x := rfl
@[simp] theorem applyHost_eip (s : State) (h : HostImage) : (s.applyHost h).eip = h.eip := rfl
@[simp] theorem applyHost_flags (s : State) (h : HostImage) : (s.applyHost h).flags = h.flags := rfl
@[simp] theorem applyHost_fpuStack (s : State) (h : HostImage) : (s.applyHost h).fpuStack = h.fpuStack := rfl
@[simp] theorem applyHost_fpuTop (s : State) (h : HostImage) : (s.applyHost h).fpuTop = h.fpuTop := rfl
@[simp] theorem applyHost_fpuStatus (s : State) (h : HostImage) : (s.applyHost h).fpuStatus = withTop h.fpuStatus h.fpuTop := rfl
@[simp] theorem applyHost_fpuControl (s : State) (h : HostImage) : (s.applyHost h).fpuControl = h.fpuControl := rfl
@[simp] theorem applyHost_fpuTag (s : State) (h : HostImage) : (s.applyHost h).fpuTag = h.fpuTag := rfl
@[simp] theorem applyHost_halted (s : State) (h : HostImage) : (s.applyHost h).halted = h.halted := rfl
@[simp] theorem applyHost_instrCount (s : State) (h : HostImage) : (s.applyHost h).instrCount = s.instrCount := rfl
@[simp] theorem applyHost_seg (s : State) (h : HostImage) : (s.applyHost h).seg = s.seg := rfl
@[simp] theorem applyHost_opsizeOverride (s : State) (h : HostImage) : (s.applyHost h).opsizeOverride = s.opsizeOverride := rfl
@[simp] theorem applyHost_rep (s : State) (h : HostImage) : (s.applyHost h).rep = s.rep := rfl
@[simp] theorem applyHost_next (s : State) (h : HostImage) : (s.applyHost h).next = s.next := rfl
@[simp] theorem applyHost_ops (s : State) (h : HostImage) : (s.applyHost h).ops = s.ops := rfl
@[simp] theorem applyHost_mem (s : State) (h : HostImage) : (s.applyHost h).mem = h.memory s.config.memSize := rfl
@[simp] theorem applyHost_terminal (s : State) (h : HostImage) : (s.applyHost h).terminal = s.terminal := rfl
@[simp] theorem applyHost_config (s : State) (h : HostImage) : (s.applyHost h).config = s.config := rfl
@[simp] theorem applyHost_draws (s : State) (h : HostImage) : (s.applyHost h).draws = s.draws + 1 := rfl

end Sys2Proof.Laws
end

