-- ==== Sys2Proof/Laws/Ops.lean ====
section
/-! SUPPORT. What the shared operations on registers, flags, memory and operands do, each said once in the
vocabulary of Claims. -/

namespace Sys2Proof.Laws

open Sys2Proof.Machine Sys2Proof.Claims

/-! ### General registers -/

theorem gpr_setGpr (s : State) (i j : Reg) (v : Word) :
    (s.setGpr i v).gpr j = if j = i then v else s.gpr j := by
  simp only [State.gpr, State.setGpr, Vector.getElem_set, BitVec.toNat_inj, eq_comm]

@[simp] theorem gpr_setGpr_self (s : State) (i : Reg) (v : Word) : (s.setGpr i v).gpr i = v := by
  simp [gpr_setGpr]

theorem gpr_setGpr_other (s : State) {i j : Reg} (v : Word) (h : j ≠ i) :
    (s.setGpr i v).gpr j = s.gpr j := by
  simp [gpr_setGpr, h]

/-- The registers are those of the field `x`. -/
theorem gpr_of_x {s t : State} (h : t.x = s.x) (i : Reg) : t.gpr i = s.gpr i := by
  simp only [State.gpr, h]

@[simp] theorem complete_gpr (s : State) (i : Reg) : s.complete.gpr i = s.gpr i := rfl
@[simp] theorem jump_gpr (s : State) (a : Word) (i : Reg) : (s.jump a).gpr i = s.gpr i := rfl
@[simp] theorem retire_gpr (s : State) (i : Reg) : s.retire.gpr i = s.gpr i := rfl
@[simp] theorem clearDecode_gpr (s : State) (i : Reg) : s.clearDecode.gpr i = s.gpr i := rfl
@[simp] theorem setCf_gpr (s : State) (b : Bool) (i : Reg) : (s.setCf b).gpr i = s.gpr i := rfl
@[simp] theorem setZf_gpr (s : State) (b : Bool) (i : Reg) : (s.setZf b).gpr i = s.gpr i := rfl
@[simp] theorem setSf_gpr (s : State) (b : Bool) (i : Reg) : (s.setSf b).gpr i = s.gpr i := rfl
@[simp] theorem setDf_gpr (s : State) (b : Bool) (i : Reg) : (s.setDf b).gpr i = s.gpr i := rfl
@[simp] theorem setOf_gpr (s : State) (b : Bool) (i : Reg) : (s.setOf b).gpr i = s.gpr i := rfl

/-! ### Register operands -/

theorem r8_eq (s : State) (r : Reg) : s.r8 r = regVal 8 s r := by
  unfold State.r8 regVal aliasReg aliasLow
  by_cases h : r.toNat < 4
  · have h' : ¬ 4 ≤ r.toNat := by omega
    simp [h, h']
  · have h' : 4 ≤ r.toNat := by omega
    simp [h, h']

theorem r16_eq (s : State) (r : Reg) : s.r16 r = regVal 16 s r := by
  simp [State.r16, regVal, aliasReg, aliasLow]

theorem gpr_eq (s : State) (r : Reg) : s.gpr r = regVal 32 s r := by
  simp [regVal, aliasReg, aliasLow]

/-- `RegSet` speaks of the general registers alone. -/
theorem RegSet.congr {w : Nat} {s t t' : State} {r : Reg} {v : BitVec w} (h : RegSet w s t r v)
    (hx : t'.x = t.x) : RegSet w s t' r v := by
  refine ⟨?_, fun i k hk => ?_⟩
  · rw [← h.1]; simp only [regVal, gpr_of_x hx]
  · rw [gpr_of_x hx, h.2 i k hk]

theorem regSet_setGpr (s : State) (r : Reg) (v : Word) : RegSet 32 s (s.setGpr r v) r v := by
  have h1 : aliasReg 32 r = r := by simp [aliasReg]
  have h2 : aliasLow 32 r = 0 := by simp [aliasLow]
  refine ⟨by simp [regVal, h1, h2], fun i k hk => ?_⟩
  rw [h1, h2] at hk
  by_cases hi : i = r
  · have : ¬ k < 32 := by simpa [hi] using hk
    rw [BitVec.getLsbD_of_ge _ _ (by omega), BitVec.getLsbD_of_ge _ _ (by omega)]
  · rw [gpr_setGpr_other _ _ hi]

/-- A register word with the bits `lo .. lo + w - 1` replaced by `v`. -/
theorem regSet_replace {w : Nat} (s : State) (r : Reg) (v : BitVec w) (new : Word)
    (h : ∀ k, k < 32 → new.getLsbD k =
      if aliasLow w r ≤ k ∧ k < aliasLow w r + w then v.getLsbD (k - aliasLow w r)
      else (s.gpr (aliasReg w r)).getLsbD k)
    (hw : aliasLow w r + w ≤ 32) : RegSet w s (s.setGpr (aliasReg w r) new) r v := by
  refine ⟨?_, fun i k hk => ?_⟩
  · simp only [regVal, gpr_setGpr_self]
    apply BitVec.eq_of_getLsbD_eq
    intro k hk
    rw [BitVec.getLsbD_extractLsb', h _ (by omega), if_pos (by omega), Nat.add_sub_cancel_left]
    simp [hk]
  · by_cases hi : i = aliasReg w r
    · subst hi
      rw [gpr_setGpr_self]
      by_cases h32 : k < 32
      · rw [h k h32, if_neg (fun hc => hk ⟨rfl, hc⟩)]
      · rw [BitVec.getLsbD_of_ge _ k (by omega), BitVec.getLsbD_of_ge _ k (by omega)]
    · rw [gpr_setGpr_other _ _ hi]

theorem regSet_setR16 (s : State) (r : Reg) (v : Half) : RegSet 16 s (s.setR16 r v) r v := by
  have h1 : aliasReg 16 r = r := by simp [aliasReg]
  have h2 : aliasLow 16 r = 0 := by simp [aliasLow]
  have := regSet_replace s r v ((s.gpr r).extractLsb' 16 16 ++ v) ?_ (by omega)
  · rwa [h1] at this
  · intro k hk
    rw [h1, h2, BitVec.getLsbD_append, BitVec.getLsbD_extractLsb']
    by_cases h : k < 16
    · simp [h]
    · have e : 16 + (k - 16) = k := by omega
      have : k - 16 < 16 := by omega
      simp [h, e, this]

theorem regSet_setR8 (s : State) (r : Reg) (v : Byte) : RegSet 8 s (s.setR8 r v) r v := by
  unfold State.setR8
  by_cases hr : r.toNat < 4
  · have h' : ¬ 4 ≤ r.toNat := by omega
    have h1 : aliasReg 8 r = r := by simp [aliasReg, h']
    have h2 : aliasLow 8 r = 0 := by simp [aliasLow, h']
    rw [if_pos hr]
    have := regSet_replace s r v ((s.gpr r).extractLsb' 8 24 ++ v) ?_ (by omega)
    · rwa [h1] at this
    · intro k hk
      rw [h1, h2, BitVec.getLsbD_append, BitVec.getLsbD_extractLsb']
      by_cases h : k < 8
      · simp [h]
      · have e : 8 + (k - 8) = k := by omega
        have : k - 8 < 24 := by omega
        simp [h, e, this]
  · have h' : 4 ≤ r.toNat := by omega
    have h1 : aliasReg 8 r = r - 4 := by simp [aliasReg, h']
    have h2 : aliasLow 8 r = 8 := by simp [aliasLow, h']
    rw [if_neg hr]
    have := regSet_replace s r v
      (((s.gpr (r - 4)).extractLsb' 16 16 ++ v) ++ (s.gpr (r - 4)).extractLsb' 0 8) ?_ (by omega)
    · rwa [h1] at this
    · intro k hk
      rw [h1, h2, BitVec.getLsbD_append, BitVec.getLsbD_append, BitVec.getLsbD_extractLsb',
        BitVec.getLsbD_extractLsb']
      by_cases h : k < 8
      · simp [h]
      · by_cases g : k < 16
        · have a : k - 8 < 8 := by omega
          have b : 8 ≤ k := by omega
          simp [h, g, a, b]
        · have a : ¬ k - 8 < 8 := by omega
          have e : 16 + (k - 8 - 8) = k := by omega
          have c : k - 8 - 8 < 16 := by omega
          simp [h, g, a, e, c]

/-- What a register operand's accessors do, said once for the three widths. -/
structure Faithful {w : Nat} (acc : Access w) : Prop where
  reg : ∀ (s : State) (r : Reg), acc.reg s r = regVal w s r
  set : ∀ (s : State) (r : Reg) (v : BitVec w), RegSet w s (acc.setReg s r v) r v
  rest : ∀ (s : State) (r : Reg) (v : BitVec w), acc.setReg s r v = { s with x := (acc.setReg s r v).x }
  width : w = 8 ∨ w = 16 ∨ w = 32

theorem faithful8 : Faithful acc8 where
  reg := r8_eq
  set := regSet_setR8
  rest s r v := by
    show s.setR8 r v = { s with x := (s.setR8 r v).x }
    unfold State.setR8
    split <;> rfl
  width := .inl rfl

theorem faithful16 : Faithful acc16 := ⟨r16_eq, regSet_setR16, fun _ _ _ => rfl, .inr (.inl rfl)⟩

theorem faithful32 : Faithful acc32 := ⟨gpr_eq, regSet_setGpr, fun _ _ _ => rfl, .inr (.inr rfl)⟩

theorem Faithful.bits {w : Nat} {acc : Access w} (h : Faithful acc) : 8 * (w / 8) = w := by
  rcases h.width with rfl | rfl | rfl <;> rfl

/-! ### Flags -/

theorem getLsbD_setBit {w : Nat} (v : BitVec w) (n : Nat) (b : Bool) (k : Nat) :
    (setBit v n b).getLsbD k = if k = n ∧ n < w then b else v.getLsbD k := by
  unfold setBit
  by_cases hk : k = n
  · subst hk
    by_cases hw : k < w
    · cases b <;> simp [hw]
    · have h := BitVec.getLsbD_of_ge v k (by omega)
      cases b <;> simp [hw, h]
  · have hn : ¬ n = k := Ne.symm hk
    by_cases hw : k < w
    · cases b <;> simp [hk, hw]
    · have h := BitVec.getLsbD_of_ge v k (by omega)
      cases b <;> simp [hk, hn, hw, h, BitVec.getLsbD_twoPow]

/-- A flag word with one flag replaced keeps every other bit. -/
theorem getLsbD_setBit_other {w : Nat} (v : BitVec w) {n k : Nat} (b : Bool) (h : k ≠ n) :
    (setBit v n b).getLsbD k = v.getLsbD k := by
  simp [getLsbD_setBit, h]

/-! ### Memory -/

theorem sum_range_succ_left (f : Nat → Nat) (k : Nat) :
    ((List.range (k + 1)).map f).sum = f 0 + ((List.range k).map fun j => f (j + 1)).sum := by
  rw [List.range_succ_eq_map, List.map_cons, List.sum_cons, List.map_map]
  rfl

/-- The little-endian sum of R74 is what `readLE` computes. -/
theorem bytesAt_eq (s : State) (a : Word) (n : Nat) : bytesAt s a n = s.mem.readLE a.toNat n := by
  have key : ∀ (n a : Nat),
      ((List.range n).map fun k => (s.mem.read (a + k)).toNat * 256 ^ k).sum = s.mem.readLE a n := by
    intro n
    induction n with
    | zero => intro a; rfl
    | succ k ih =>
      intro a
      rw [sum_range_succ_left, Memory.readLE, ← ih (a + 1), ← List.sum_map_mul_left]
      congr 1
      · simp
      · congr 1
        apply List.map_congr_left
        intro j _
        rw [show a + (j + 1) = a + 1 + j by omega, pow_succ]
        ring
  exact key n a.toNat

theorem bytesAt_lt (s : State) (a : Word) (n : Nat) : bytesAt s a n < 256 ^ n := by
  rw [bytesAt_eq]
  exact readLE_lt _ _ _

theorem inBounds_eq (s : State) (a : Word) (n : Nat) : s.inBounds a n = fits s a n := rfl

/-- `MemRead` inside memory (R72, R74). -/
theorem memRead_fits {w : Nat} {s : State} {a : Word} (h : fits s a (w / 8) = true) :
    s.memRead w a = .ok (BitVec.ofNat w (bytesAt s a (w / 8))) := by
  rw [bytesAt_eq, State.memRead, inBounds_eq, if_pos h]

/-- `MemRead` outside memory (R72). -/
theorem memRead_not_fits {w : Nat} {s : State} {a : Word} (h : fits s a (w / 8) = false) :
    s.memRead w a = .error (.memoryFault a (w / 8) s.config.memSize s.eip) := by
  rw [State.memRead, inBounds_eq, h, if_neg (by simp)]
  rfl

theorem memStored_writeLE (s t : State) (a : Word) (n v : Nat) (h : t.mem = s.mem.writeLE a.toNat n v) :
    MemStored s t a n v := by
  refine ⟨fun k hk => ?_, fun b hb => ?_⟩
  · rw [h, read_writeLE, if_pos (by omega), Nat.add_sub_cancel_left]
  · rw [h, read_writeLE_outside _ _ _ _ _ hb]

/-- `MemWrite` inside memory (R72, R74): the bytes are stored, and nothing else changes. -/
theorem memWrite_fits {w : Nat} {s : State} {a : Word} (v : BitVec w) (h : fits s a (w / 8) = true) :
    ∃ t : State, s.memWrite a v = .ok t ∧ MemStored s t a (w / 8) v.toNat ∧ t = { s with mem := t.mem } := by
  refine ⟨{ s with mem := s.mem.writeLE a.toNat (w / 8) v.toNat }, ?_, memStored_writeLE _ _ _ _ _ rfl, rfl⟩
  rw [State.memWrite, inBounds_eq, if_pos h]

/-- `MemWrite` outside memory (R72). -/
theorem memWrite_not_fits {w : Nat} {s : State} {a : Word} (v : BitVec w) (h : fits s a (w / 8) = false) :
    s.memWrite a v = .error (.memoryFault a (w / 8) s.config.memSize s.eip) := by
  rw [State.memWrite, inBounds_eq, h, if_neg (by simp)]
  rfl

/-- `MemStored` speaks of memory alone. -/
theorem MemStored.congr {s t t' : State} {a : Word} {n v : Nat} (h : MemStored s t a n v)
    (hm : t'.mem = t.mem) : MemStored s t' a n v := by
  refine ⟨fun k hk => ?_, fun b hb => ?_⟩
  · rw [hm]; exact h.1 k hk
  · rw [hm]; exact h.2 b hb

theorem memSame_of {s t : State} (h : t.mem = s.mem) : MemSame s t := fun a => by rw [h]

theorem regsSame_of {s t : State} (h : t.x = s.x) : RegsSame s t := gpr_of_x h

/-- The stored bytes read back as the value (R75). -/
theorem MemStored.bytesAt {s t : State} {a : Word} {n v : Nat} (h : MemStored s t a n v) :
    Claims.bytesAt t a n = v % 256 ^ n := by
  rw [bytesAt_eq]
  have : t.mem.readLE a.toNat n = (s.mem.writeLE a.toNat n v).readLE a.toNat n := by
    apply readLE_congr
    intro b h1 h2
    have hk := h.1 (b - a.toNat) (by omega)
    rw [show a.toNat + (b - a.toNat) = b by omega] at hk
    rw [hk, read_writeLE, if_pos ⟨h1, h2⟩]
  rw [this, readLE_writeLE_self]

/-! ### The r/m operand -/

/-- `Read(rm, w)` where the operand fits (R24). -/
theorem readRm_fits {w : Nat} {acc : Access w} (hacc : Faithful acc) {s : State} (h : rmFits w s = true) :
    readRm acc s s.ops.rm = .ok (rmVal w s) := by
  unfold rmFits at h
  unfold readRm rmVal
  cases hrm : s.ops.rm with
  | reg r => simp [hacc.reg]
  | mem m =>
    rw [hrm] at h
    exact memRead_fits h

/-- `Write(rm, w, v)` where the operand fits (R24): the operand holds `v`, and only registers or memory change. -/
theorem writeRm_fits {w : Nat} {acc : Access w} (hacc : Faithful acc) {s : State} (v : BitVec w)
    (h : rmFits w s = true) :
    ∃ t : State, writeRm acc s s.ops.rm v = .ok t ∧ RmSet w s t v ∧ t = { s with x := t.x, mem := t.mem } := by
  unfold rmFits at h
  unfold writeRm RmSet
  cases hrm : s.ops.rm with
  | reg r =>
    refine ⟨acc.setReg s r v, rfl, ⟨hacc.set s r v, memSame_of ?_⟩, ?_⟩
    · rw [hacc.rest]
    · conv_lhs => rw [hacc.rest]
      rw [hacc.rest]
  | mem m =>
    rw [hrm] at h
    obtain ⟨t, h1, h2, h3⟩ := memWrite_fits v h
    exact ⟨t, h1, ⟨regsSame_of (by rw [h3]), h2⟩, by rw [h3]⟩

/-- An r/m operand outside memory faults on reading (R72, R503). -/
theorem readRm_not_fits {w : Nat} (acc : Access w) {s : State} {m : MemOp} (hrm : s.ops.rm = .mem m)
    (h : fits s (linearAddr s m) (w / 8) = false) :
    readRm acc s s.ops.rm = .error (.memoryFault (linearAddr s m) (w / 8) s.config.memSize s.eip) := by
  rw [hrm]
  exact memRead_not_fits h

/-- An r/m operand outside memory faults on writing (R72, R503). -/
theorem writeRm_not_fits {w : Nat} (acc : Access w) {s : State} {m : MemOp} (v : BitVec w)
    (hrm : s.ops.rm = .mem m) (h : fits s (linearAddr s m) (w / 8) = false) :
    writeRm acc s s.ops.rm v = .error (.memoryFault (linearAddr s m) (w / 8) s.config.memSize s.eip) := by
  rw [hrm]
  exact memWrite_not_fits v h

/-- `RmSet` speaks of registers and memory alone. -/
theorem RmSet.congr {w : Nat} {s t t' : State} {v : BitVec w} (h : RmSet w s t v) (hx : t'.x = t.x)
    (hm : t'.mem = t.mem) : RmSet w s t' v := by
  unfold RmSet at h ⊢
  cases hrm : s.ops.rm with
  | reg r =>
    rw [hrm] at h
    exact ⟨RegSet.congr h.1 hx, fun a => by rw [hm]; exact h.2 a⟩
  | mem m =>
    rw [hrm] at h
    exact ⟨fun i => by rw [gpr_of_x hx]; exact h.1 i, MemStored.congr h.2 hm⟩

/-! ### Stack primitives -/

/-- `Push32(v)` where the slot fits (R320). -/
theorem push32_fits {s : State} (v : Word) (h : fits s (s.gpr 4 - 4) 4 = true) :
    ∃ t : State, push32 s v = .ok t ∧ MemStored s t (s.gpr 4 - 4) 4 v.toNat ∧ t.gpr 4 = s.gpr 4 - 4 ∧
      RegsSameBut [4] s t ∧ t = { s with x := t.x, mem := t.mem } := by
  obtain ⟨t, h1, h2, h3⟩ := memWrite_fits (w := 32) v h
  have hx : t.x = s.x := by rw [h3]
  refine ⟨t.setGpr 4 (s.gpr 4 - 4), ?_, MemStored.congr h2 rfl, by simp, fun i hi => ?_, ?_⟩
  · simp only [push32, h1]
    rfl
  · rw [gpr_setGpr_other _ _ (by simpa using hi), gpr_of_x hx]
  · conv_lhs => rw [h3]
    rw [h3]
    rfl

/-- `Push32(v)` where the slot does not fit (R320). -/
theorem push32_not_fits {s : State} (v : Word) (h : fits s (s.gpr 4 - 4) 4 = false) :
    push32 s v = .error (.memoryFault (s.gpr 4 - 4) 4 s.config.memSize s.eip) := by
  simp only [push32, memWrite_not_fits (w := 32) v h]
  rfl

/-- `Pop32()` where the slot fits (R320). -/
theorem pop32_fits {s : State} (h : fits s (s.gpr 4) 4 = true) :
    pop32 s = .ok (BitVec.ofNat 32 (bytesAt s (s.gpr 4) 4), s.setGpr 4 (s.gpr 4 + 4)) := by
  simp only [pop32, memRead_fits (w := 32) h]
  rfl

/-- `Pop32()` where the slot does not fit (R320). -/
theorem pop32_not_fits {s : State} (h : fits s (s.gpr 4) 4 = false) :
    pop32 s = .error (.memoryFault (s.gpr 4) 4 s.config.memSize s.eip) := by
  simp only [pop32, memRead_not_fits (w := 32) h]
  rfl

/-! ### Completing -/

/-- A state that differs from `s` in registers, flags, x87 fields, memory and draws alone, jumped to `a`. -/
theorem ended_jump {s t : State} (a : Word) (hcount : t.instrCount = s.instrCount) (hconf : t.config = s.config)
    (hterm : t.terminal = s.terminal) (hhalt : t.halted = s.halted) : Ended s (t.jump a) a :=
  ⟨rfl, by simp [hcount], ⟨rfl, rfl, rfl, rfl, rfl⟩, hconf, hterm, hhalt⟩

/-- The same, completed at `next`. -/
theorem ended_complete {s t : State} (hnext : t.next = s.next) (hcount : t.instrCount = s.instrCount)
    (hconf : t.config = s.config) (hterm : t.terminal = s.terminal) (hhalt : t.halted = s.halted) :
    Ended s t.complete s.next := by
  have := ended_jump s.next hcount hconf hterm hhalt
  unfold State.complete
  rwa [hnext]

/-- An instruction that touched registers, flags and memory alone went to `a`. -/
theorem intEnded_jump {s t : State} (a : Word) (h : t = { s with x := t.x, flags := t.flags, mem := t.mem }) :
    IntEnded s (t.jump a) a := by
  obtain ⟨x, e, f, st, tp, fs, fc, ft, hl, ic, sg, os, rp, nx, op, m, te, cf, dr⟩ := t
  cases h
  exact ⟨⟨rfl, rfl, ⟨rfl, rfl, rfl, rfl, rfl⟩, rfl, rfl, rfl⟩, ⟨rfl, rfl, rfl, rfl, rfl⟩, rfl⟩

/-- An instruction that touched registers, flags and memory alone completed. -/
theorem intEnded_complete {s t : State} (h : t = { s with x := t.x, flags := t.flags, mem := t.mem }) :
    IntEnded s t.complete s.next := by
  have hn : t.next = s.next := by rw [h]
  unfold State.complete
  rw [hn]
  exact intEnded_jump _ h

end Sys2Proof.Laws
end

