-- ==== Sys2Proof/Laws/Alu.lean ====
section
/-! SUPPORT. What the flag operations and the operand forms of the arithmetic and logic block do, each said once. -/

namespace Sys2Proof.Laws

open Sys2Proof.Machine Sys2Proof.Claims

/-! ### Flags -/

/-- `FlagsOf` speaks of the flags word alone. -/
theorem FlagsOf.congr {w : Nat} {s t t' : State} {cf of : Bool} {r : BitVec w} (h : FlagsOf s t cf of r)
    (hf : t'.flags = t.flags) : FlagsOf s t' cf of r := by
  unfold FlagsOf FlagsSameBut State.cf State.of State.zf State.sf at h ⊢
  rwa [hf]

/-- The flags after `setAlu` (R240 to R242). -/
theorem flagsOf_setAlu {w : Nat} {s t : State} (r : AluResult w) (hf : t.flags = s.flags) :
    FlagsOf s (t.setAlu r) r.cf r.of r.val := by
  refine ⟨?_, ?_, ?_, ?_, fun k hk => ?_⟩
  · simp only [State.cf, State.setAlu, State.setZs, State.setSf, State.setZf, State.setOf, State.setCf, getLsbD_setBit]; simp
  · simp only [State.of, State.setAlu, State.setZs, State.setSf, State.setZf, State.setOf, State.setCf, getLsbD_setBit]; simp
  · simp only [State.zf, State.setAlu, State.setZs, State.setSf, State.setZf, State.setOf, State.setCf, getLsbD_setBit]; simp; rfl
  · simp only [State.sf, State.setAlu, State.setZs, State.setSf, State.setZf, State.setOf, State.setCf, getLsbD_setBit]; simp
  · simp only [List.mem_cons, List.not_mem_nil, or_false, not_or] at hk
    simp [State.setAlu, State.setZs, State.setSf, State.setZf, State.setOf, State.setCf, getLsbD_setBit, hf, hk]

/-- The flags after `setAluKeepCf` (R250, R251). -/
theorem flags_setAluKeepCf {w : Nat} {s t : State} (r : AluResult w) (hf : t.flags = s.flags) :
    (t.setAluKeepCf r).of = r.of ∧ (t.setAluKeepCf r).zf = decide (r.val = 0) ∧
      (t.setAluKeepCf r).sf = r.val.msb ∧ FlagsSameBut [6, 7, 11] s (t.setAluKeepCf r) := by
  refine ⟨?_, ?_, ?_, fun k hk => ?_⟩
  · simp only [State.of, State.setAluKeepCf, State.setZs, State.setSf, State.setZf, State.setOf, getLsbD_setBit]; simp
  · simp only [State.zf, State.setAluKeepCf, State.setZs, State.setSf, State.setZf, State.setOf, getLsbD_setBit]; simp; rfl
  · simp only [State.sf, State.setAluKeepCf, State.setZs, State.setSf, State.setZf, State.setOf, getLsbD_setBit]; simp
  · simp only [List.mem_cons, List.not_mem_nil, or_false, not_or] at hk
    simp [State.setAluKeepCf, State.setZs, State.setSf, State.setZf, State.setOf, getLsbD_setBit, hf, hk]

/-- The flags after CF and OF are set (R253 to R256, R293 to R296). -/
theorem carryOverflow_set {s t : State} (cf of : Bool) (hf : t.flags = s.flags) :
    CarryOverflow s ((t.setCf cf).setOf of) cf of := by
  refine ⟨?_, ?_, fun k hk => ?_⟩
  · simp only [State.cf, State.setOf, State.setCf, getLsbD_setBit]; simp
  · simp only [State.of, State.setOf, State.setCf, getLsbD_setBit]; simp
  · simp only [List.mem_cons, List.not_mem_nil, or_false, not_or] at hk
    simp [State.setOf, State.setCf, getLsbD_setBit, hf, hk]

/-- `setAlu` writes the flags word alone. -/
theorem setAlu_rest {w : Nat} (t : State) (r : AluResult w) : t.setAlu r = { t with flags := (t.setAlu r).flags } := rfl

/-! ### Ends -/

/-- A result put into registers or memory, then flags, then the end of the instruction. -/
theorem intEnded_flags {s t u : State} (h : t = { s with x := t.x, mem := t.mem })
    (hu : u = { t with flags := u.flags }) : IntEnded s u.complete s.next := by
  apply intEnded_complete
  obtain ⟨x, e, f, st, tp, fs, fc, ft, hl, ic, sg, os, rp, nx, op, m, te, cf, dr⟩ := t
  cases h
  conv_lhs => rw [hu]
  conv_rhs => rw [hu]

/-- Registers or memory changed, and the instruction ended with the flags as they were. -/
theorem intEnded_plain {s t : State} (h : t = { s with x := t.x, mem := t.mem }) :
    t.complete.flags = s.flags ∧ IntEnded s t.complete s.next := by
  have hf : t.flags = s.flags := by rw [h]
  refine ⟨hf, intEnded_complete ?_⟩
  rw [hf]
  exact h

/-- Nothing but flags changed, and the instruction ended. -/
theorem intEnded_setFlags (s : State) (f : BitVec 32) :
    IntEnded s ({ s with flags := f } : State).complete s.next :=
  intEnded_flags (t := s) rfl rfl

/-! ### The forms of R244 -/

/-- The form with an r/m destination, other than CMP (R244). -/
theorem aluRm_fits {w : Nat} {acc : Access w} (hacc : Faithful acc) {op : AluOp} (hop : op ≠ .cmp)
    (src : BitVec w) {s : State} (h : rmFits w s = true) :
    let r := aluResult op s (rmVal w s) src
    ∃ t : State, aluRm acc op src s = .ok t ∧ RmSet w s t r.val ∧ FlagsOf s t r.cf r.of r.val ∧
      IntEnded s t s.next := by
  intro r
  obtain ⟨t, h1, h2, h3⟩ := writeRm_fits hacc r.val h
  have hf : t.flags = s.flags := by rw [h3]
  refine ⟨(t.setAlu r).complete, ?_, RmSet.congr h2 rfl rfl,
    FlagsOf.congr (flagsOf_setAlu r hf) rfl, intEnded_flags h3 rfl⟩
  simp only [aluRm, readRm_fits hacc h, if_neg hop]
  show (writeRm acc s s.ops.rm r.val >>= _) = _
  rw [h1]
  rfl

/-- The form with an r/m destination, CMP (R249). -/
theorem aluRm_cmp {w : Nat} {acc : Access w} (hacc : Faithful acc) (src : BitVec w) {s : State}
    (h : rmFits w s = true) :
    aluRm acc .cmp src s = .ok (s.setAlu (subResult (rmVal w s) src)).complete := by
  simp only [aluRm, readRm_fits hacc h, if_true]
  rfl

/-- The form with an r/m destination faults on reading it (R512). -/
theorem aluRm_not_fits {w : Nat} (acc : Access w) (op : AluOp) (src : BitVec w) {s : State} {m : MemOp}
    (hrm : s.ops.rm = .mem m) (h : fits s (linearAddr s m) (w / 8) = false) :
    aluRm acc op src s = .error (.memoryFault (linearAddr s m) (w / 8) s.config.memSize s.eip) := by
  simp only [aluRm, readRm_not_fits acc hrm h]
  rfl

/-- The forms with a register destination, other than CMP (R244). -/
theorem aluReg_spec {w : Nat} {acc : Access w} (hacc : Faithful acc) {op : AluOp} (hop : op ≠ .cmp)
    (dst : Reg) (src : BitVec w) (s : State) :
    let r := aluResult op s (regVal w s dst) src
    let t := aluReg acc op dst src s
    (RegSet w s t dst r.val ∧ MemSame s t) ∧ FlagsOf s t r.cf r.of r.val ∧ IntEnded s t s.next := by
  intro r t
  have ht : t = ((acc.setReg s dst r.val).setAlu r).complete := by
    show aluReg acc op dst src s = _
    simp only [aluReg, if_neg hop, hacc.reg]
    rfl
  have hrest := hacc.rest s dst r.val
  have hx : (acc.setReg s dst r.val) = { s with x := (acc.setReg s dst r.val).x, mem := (acc.setReg s dst r.val).mem } := by
    conv_lhs => rw [hrest]
    conv_rhs => rw [hrest]
  rw [ht]
  refine ⟨⟨RegSet.congr (hacc.set s dst r.val) rfl, memSame_of ?_⟩, FlagsOf.congr (flagsOf_setAlu r ?_) rfl, intEnded_flags hx rfl⟩
  · show (acc.setReg s dst r.val).mem = _
    rw [hrest]
  · rw [hrest]

/-- CMP on a register (R249). -/
theorem aluReg_cmp {w : Nat} {acc : Access w} (hacc : Faithful acc) (dst : Reg) (src : BitVec w) (s : State) :
    aluReg acc .cmp dst src s = (s.setAlu (subResult (regVal w s dst) src)).complete := by
  simp only [aluReg, if_true, hacc.reg]
  rfl

/-- The form with a register destination and an r/m source (R244). -/
theorem aluRegRm_fits {w : Nat} {acc : Access w} (hacc : Faithful acc) (op : AluOp) {s : State}
    (h : rmFits w s = true) : aluRegRm acc op s = .ok (aluReg acc op s.ops.reg (rmVal w s) s) := by
  simp only [aluRegRm, readRm_fits hacc h]
  rfl

/-- The same form faults on reading its source (R512). -/
theorem aluRegRm_not_fits {w : Nat} (acc : Access w) (op : AluOp) {s : State} {m : MemOp}
    (hrm : s.ops.rm = .mem m) (h : fits s (linearAddr s m) (w / 8) = false) :
    aluRegRm acc op s = .error (.memoryFault (linearAddr s m) (w / 8) s.config.memSize s.eip) := by
  simp only [aluRegRm, readRm_not_fits acc hrm h]
  rfl

/-- TEST with an r/m destination (R284). -/
theorem testRm_fits {w : Nat} {acc : Access w} (hacc : Faithful acc) (src : BitVec w) {s : State}
    (h : rmFits w s = true) :
    testRm acc src s = .ok (s.setAlu (logicResult (rmVal w s &&& src))).complete := by
  simp only [testRm, readRm_fits hacc h]
  rfl

/-- The flags-only end: CMP and TEST (R249, R284). -/
theorem setAlu_complete_spec {w : Nat} (s : State) (r : AluResult w) :
    let t := (s.setAlu r).complete
    RegsSame s t ∧ MemSame s t ∧ FlagsOf s t r.cf r.of r.val ∧ IntEnded s t s.next :=
  ⟨fun _ => rfl, fun _ => rfl, FlagsOf.congr (flagsOf_setAlu r rfl) rfl, intEnded_setFlags s _⟩

/-- The one-operand form on r/m (R250 to R252, R285); `setFlags` writes the flags word alone. -/
theorem unaryRm_fits {w : Nat} {acc : Access w} (hacc : Faithful acc) (f : BitVec w → AluResult w)
    (setFlags : State → AluResult w → State)
    (hset : ∀ t r, setFlags t r = { t with flags := (setFlags t r).flags }) {s : State}
    (h : rmFits w s = true) :
    ∃ u t : State, unaryRm acc f setFlags s = .ok t ∧ t = (setFlags u (f (rmVal w s))).complete ∧
      u.flags = s.flags ∧ RmSet w s t (f (rmVal w s)).val ∧ IntEnded s t s.next := by
  obtain ⟨u, h1, h2, h3⟩ := writeRm_fits hacc (f (rmVal w s)).val h
  refine ⟨u, _, ?_, rfl, by rw [h3], ?_, ?_⟩
  · simp only [unaryRm, readRm_fits hacc h]
    show (writeRm acc s s.ops.rm (f (rmVal w s)).val >>= _) = _
    rw [h1]
    rfl
  · rw [hset]
    exact RmSet.congr h2 rfl rfl
  · rw [hset]
    exact intEnded_flags h3 rfl

/-- The one-operand form on the register of a +r opcode (R250, R251). -/
theorem unaryReg_spec (f : Word → AluResult 32) (setFlags : State → AluResult 32 → State)
    (hset : ∀ t r, setFlags t r = { t with flags := (setFlags t r).flags }) (s : State) :
    let r := f (regVal 32 s s.ops.reg)
    let t := unaryReg f setFlags s
    ∃ u : State, t = (setFlags u r).complete ∧ u.flags = s.flags ∧ (RegSet 32 s t s.ops.reg r.val ∧ MemSame s t) ∧
      IntEnded s t s.next := by
  intro r t
  have ht : t = (setFlags (s.setGpr s.ops.reg r.val) r).complete := by
    show unaryReg f setFlags s = _
    simp only [unaryReg, gpr_eq]
    rfl
  refine ⟨s.setGpr s.ops.reg r.val, ht, rfl, ⟨?_, ?_⟩, ?_⟩
  · rw [ht, hset]
    exact RegSet.congr (regSet_setGpr s s.ops.reg r.val) rfl
  · rw [ht, hset]
    exact fun _ => rfl
  · rw [ht, hset]
    exact intEnded_flags (t := s.setGpr s.ops.reg r.val) rfl rfl

end Sys2Proof.Laws
end

