-- ==== Sys2Proof/Laws/Decode.lean ====
section
/-! SUPPORT. The decoder reads back what the encoder writes (spec/30_encoding.md R100 to R151): one lemma per field,
then `decodeOpcode_encodeBody` for a row that the opcode maps list as its description says (`rowReads`). -/

namespace Sys2Proof.Laws

/-! ### Bytes and fields -/

theorem modField_join (a : BitVec 2) (b c : Reg) : modField (joinFields a b c) = a := by
  revert a b c
  decide

theorem regField_join (a : BitVec 2) (b c : Reg) : regField (joinFields a b c) = b := by
  revert a b c
  decide

theorem rmField_join (a : BitVec 2) (b c : Reg) : rmField (joinFields a b c) = c := by
  revert a b c
  decide

theorem join_fields (m : Byte) : joinFields (modField m) (regField m) (rmField m) = m := by
  revert m
  decide

theorem word4_bytes (w : Word) :
    word4 (w.extractLsb' 0 8) (w.extractLsb' 8 8) (w.extractLsb' 16 8) (w.extractLsb' 24 8) = w := by
  apply BitVec.eq_of_getLsbD_eq
  intro i hi
  simp only [word4, BitVec.getLsbD_append, BitVec.getLsbD_extractLsb']
  split
  · simp [*]
  · split
    · simp only [show i - 8 < 8 by omega, decide_true, Bool.true_and]; congr 1; omega
    · split
      · simp only [show i - 8 - 8 < 8 by omega, decide_true, Bool.true_and]; congr 1; omega
      · simp only [show i - 8 - 8 - 8 < 8 by omega, decide_true, Bool.true_and]; congr 1; omega

theorem take4_bytes4 (w : Word) (rest : List Byte) : take4 (bytes4 w ++ rest) = .ok (w, rest) := by
  simp only [bytes4, List.cons_append, List.nil_append, take4, word4_bytes]

/-! ### Operands -/

theorem decodeDisp_encode (d : Disp) (rest : List Byte) :
    decodeDisp (dispMod d) (encodeDisp d ++ rest) = .ok (d, rest) := by
  cases d with
  | none => rfl
  | disp8 b => rfl
  | disp32 w => simp [decodeDisp, dispMod, encodeDisp, take4_bytes4]

theorem dispMod_ne3 (d : Disp) : dispMod d ≠ 3 := by cases d <;> simp [dispMod]

theorem dispMod_eq0 {d : Disp} : dispMod d = 0 ↔ d = .none := by
  cases d <;> simp [dispMod]

/-- The ModRM byte of a memory operand and what follows it. -/
theorem decodeMem_encode {m : MemOp} (reg : Reg) (rest : List Byte) (h : m.wf = true) :
    ∃ (b : Byte) (tail : List Byte), encodeMem reg m = b :: tail ∧ modField b ≠ 3 ∧ regField b = reg ∧
      decodeMem b (tail ++ rest) = .ok (m, rest) := by
  cases m with
  | abs d =>
    exact ⟨_, _, rfl, by rw [modField_join]; decide, regField_join .., by
      simp [decodeMem, modField_join, rmField_join, take4_bytes4]⟩
  | base b d =>
    simp only [MemOp.wf, Bool.and_eq_true, bne_iff_ne, Bool.or_eq_true] at h
    refine ⟨_, _, rfl, by rw [modField_join]; exact dispMod_ne3 d, regField_join .., ?_⟩
    have : ¬(dispMod d = 0 ∧ b = 5) := by
      rw [dispMod_eq0]
      rintro ⟨h1, h2⟩
      rcases h.2 with h3 | h3 <;> contradiction
    simp only [decodeMem, modField_join, rmField_join, h.1, if_false, this, decodeDisp_encode]
  | sib sc ix b d =>
    simp only [MemOp.wf, Bool.or_eq_true, bne_iff_ne] at h
    refine ⟨_, _, rfl, by rw [modField_join]; exact dispMod_ne3 d, regField_join .., ?_⟩
    have : ¬(dispMod d = 0 ∧ b = 5) := by
      rw [dispMod_eq0]
      rintro ⟨h1, h2⟩
      rcases h with h3 | h3 <;> contradiction
    simp only [decodeMem, decodeSib, List.cons_append, modField_join, rmField_join, regField_join, if_true, this,
      if_false, decodeDisp_encode]
  | sibAbs sc ix d =>
    refine ⟨_, _, rfl, by rw [modField_join]; decide, regField_join .., ?_⟩
    simp [decodeMem, decodeSib, modField_join, rmField_join, regField_join, take4_bytes4]

/-- The ModRM byte of any operand and what follows it. -/
theorem decodeRM_encode {rm : RM} (reg : Reg) (rest : List Byte) (h : rm.wf = true) :
    ∃ (b : Byte) (tail : List Byte), encodeRM reg rm = b :: tail ∧ regField b = reg ∧
      (modField b = 3 ↔ rm.isMem = false) ∧ (∀ r, rm = .reg r → rmField b = r) ∧
      decodeRM b (tail ++ rest) = .ok (rm, rest) := by
  cases rm with
  | reg r =>
    refine ⟨_, _, rfl, regField_join .., by simp [modField_join, RM.isMem], fun k hk => ?_, ?_⟩
    · cases hk
      exact rmField_join ..
    · simp [decodeRM, modField_join, rmField_join]
  | mem m =>
    obtain ⟨b, tail, h1, h2, h3, h4⟩ := decodeMem_encode reg rest h
    refine ⟨b, tail, h1, h3, ?_, fun r hr => (by cases hr), ?_⟩
    · exact ⟨fun h => absurd h h2, fun h => by cases h⟩
    · simp only [decodeRM, h2, if_false, h4]

/-! ### Immediates -/

theorem zext_byte {w : Word} (h : w.toNat < 256) : (w.extractLsb' 0 8).setWidth 32 = w := by
  apply BitVec.eq_of_toNat_eq
  simp only [BitVec.toNat_setWidth, BitVec.extractLsb'_toNat, Nat.shiftRight_zero]
  omega

theorem zext_half {w : Word} (h : w.toNat < 65536) :
    (w.extractLsb' 8 8 ++ w.extractLsb' 0 8 : Half).setWidth 32 = w := by
  apply BitVec.eq_of_getLsbD_eq
  intro i hi
  rw [BitVec.getLsbD_setWidth, BitVec.getLsbD_append]
  simp only [hi, decide_true, Bool.true_and, BitVec.getLsbD_extractLsb']
  split
  · simp [*]
  · by_cases h16 : i < 16
    · simp only [show i - 8 < 8 by omega, decide_true, Bool.true_and]
      congr 1
      omega
    · simp only [show ¬ i - 8 < 8 by omega, decide_false, Bool.false_and]
      exact (Nat.testBit_lt_two_pow (lt_of_lt_of_le h
        (Nat.pow_le_pow_right (by decide) (Nat.le_of_not_lt h16) : 2 ^ 16 ≤ 2 ^ i))).symm

theorem decodeImm_encode {k : ImmKind} {osz : Bool} {o : Operands} (rest : List Byte) (h : k.wf osz o = true) :
    decodeImm k osz ⟨o.reg, o.rm, 0, 0, 0⟩ (encodeImm k osz o ++ rest) = .ok (o, rest) := by
  obtain ⟨reg, rm, imm, rel, moffs⟩ := o
  cases k <;> simp only [ImmKind.wf, Bool.and_eq_true, beq_iff_eq, decide_eq_true_eq] at h
  case none => obtain ⟨rfl, rfl, rfl⟩ := h; rfl
  case ib =>
    obtain ⟨h, rfl, rfl⟩ := h
    simp only [encodeImm, decodeImm, List.cons_append, zext_byte h, List.nil_append]
  case ibSext =>
    obtain ⟨h, rfl, rfl⟩ := h
    simp only [isSextByte, beq_iff_eq] at h
    simp only [encodeImm, decodeImm, List.cons_append, List.nil_append, h]
  case iw =>
    obtain ⟨h, rfl, rfl⟩ := h
    simp only [encodeImm, decodeImm, decodeImm.takeHalf, bytes2, List.cons_append, List.nil_append, zext_half h]
  case id =>
    obtain ⟨rfl, rfl⟩ := h
    simp only [encodeImm, decodeImm, decodeImm.takeWord, take4_bytes4]
  case idOrIw =>
    obtain ⟨h, rfl, rfl⟩ := h
    cases osz with
    | false => simp [encodeImm, decodeImm, decodeImm.takeWord, take4_bytes4]
    | true =>
      have h : imm.toNat < 65536 := by simpa using h
      simp [encodeImm, decodeImm, decodeImm.takeHalf, bytes2, zext_half h]
  case rel8 =>
    obtain ⟨h, rfl, rfl⟩ := h
    simp only [isSextByte, beq_iff_eq] at h
    simp only [encodeImm, decodeImm, List.cons_append, List.nil_append, h]
  case rel32 =>
    obtain ⟨rfl, rfl⟩ := h
    simp only [encodeImm, decodeImm, take4_bytes4]
  case moffs32 =>
    obtain ⟨rfl, rfl⟩ := h
    simp only [encodeImm, decodeImm, take4_bytes4]

/-! ### Rows and the opcode maps -/

/-- The eight register fields. -/
def regFields : List Reg := [0, 1, 2, 3, 4, 5, 6, 7]

theorem mem_regFields (r : Reg) : r ∈ regFields := by
  revert r
  decide

/-- The entry of an opcode map leads to the row `i` by the row's shape. -/
def entryReads (i : Instr) (s : Shape) (e : Option Entry) : Bool :=
  match e, s with
  | some (.plain j), .none => j == i
  | some (.plusR j), .plusR => j == i
  | some (.modrm j), .reg => j == i
  | some (.mem j), .mem => j == i
  | some (.group g), .ext n => g n == some i
  | some (.x87 m _), .extMem n => m n == some i
  | some (.x87 _ r), .st n => regFields.all fun k => r n k == some i
  | some (.x87 _ r), .fixed n k => r n k == some i
  | _, _ => false

/-- A one-byte opcode leads to the row. -/
def byteReads (i : Instr) (b : Byte) : Bool :=
  ((prefixEffect b noPrefixes).isNone && b != 0x0F) &&
    (honours16 (.one b) == i.row.opsize16 && entryReads i i.row.shape (primary b))

/-- The opcode maps lead to the row `i` by the key and the shape of its description, for each register of a +r
opcode, and its description says whether it honours 0x66. -/
def rowReads (i : Instr) : Bool :=
  match i.row.key, i.row.shape with
  | .one b, .plusR =>
    regFields.all fun r => rmField (b ||| r.setWidth 8) == r && byteReads i (b ||| r.setWidth 8)
  | .one b, _ => byteReads i b
  | .two _, .plusR => false
  | .two b, s => honours16 (.two b) == i.row.opsize16 && entryReads i s (secondary b)

theorem finishRow_encode {i : Instr} {osz : Bool} {o : Operands} (rest : List Byte)
    (h : i.row.imm.wf osz o = true) :
    finishRow i osz o.reg o.rm (encodeImm i.row.imm osz o ++ rest) = .ok (i, o, rest) := by
  simp only [finishRow, decodeImm_encode rest h]

theorem decodeWithRM_encode {i : Instr} {osz : Bool} {o : Operands} (rest : List Byte) (hrm : o.rm.wf = true)
    (h : i.row.imm.wf osz o = true) :
    ∃ (b : Byte) (tail : List Byte), encodeRM o.reg o.rm = b :: tail ∧ regField b = o.reg ∧
      (modField b = 3 ↔ o.rm.isMem = false) ∧ (∀ r, o.rm = .reg r → rmField b = r) ∧
      decodeWithRM i osz b (tail ++ (encodeImm i.row.imm osz o ++ rest)) = .ok (i, o, rest) := by
  obtain ⟨b, tail, h1, h2, h3, h4, h5⟩ :=
    decodeRM_encode o.reg (encodeImm i.row.imm osz o ++ rest) hrm
  refine ⟨b, tail, h1, h2, h3, h4, ?_⟩
  simp only [decodeWithRM, h5, h2, finishRow_encode rest h]

/-- What follows the opcode bytes is read back. -/
theorem decodeEntry_encode {i : Instr} {osz : Bool} {o : Operands} {e : Option Entry} {key : OpKey} {opcode : Byte}
    (rest : List Byte) (he : entryReads i i.row.shape e = true) (hs : i.row.shape.wf o = true)
    (hi : i.row.imm.wf osz o = true) (hr : i.row.shape = .plusR → rmField opcode = o.reg) :
    ∃ e', e = some e' ∧ decodeEntry key opcode e' osz
      (encodeModRM i.row.shape o ++ (encodeImm i.row.imm osz o ++ rest)) = .ok (i, o, rest) := by
  have key := @decodeWithRM_encode i osz o rest
  generalize i.row.shape = s at he hs hr ⊢
  unfold entryReads at he
  split at he
  · simp only [beq_iff_eq] at he
    subst he
    simp only [Shape.wf, Bool.and_eq_true, beq_iff_eq] at hs
    refine ⟨_, rfl, ?_⟩
    have := finishRow_encode rest hi
    rw [hs.1, hs.2] at this
    exact this
  · simp only [beq_iff_eq] at he
    subst he
    simp only [Shape.wf, beq_iff_eq] at hs
    refine ⟨_, rfl, ?_⟩
    have := finishRow_encode rest hi
    rw [hs] at this
    simp only [decodeEntry, hr rfl]
    exact this
  · simp only [beq_iff_eq] at he
    subst he
    obtain ⟨b, tail, h1, h2, -, -, h5⟩ := key hs hi
    exact ⟨_, rfl, by simp only [encodeModRM, h1, List.cons_append, decodeEntry, h5]⟩
  · simp only [beq_iff_eq] at he
    subst he
    simp only [Shape.wf, Bool.and_eq_true] at hs
    obtain ⟨b, tail, h1, h2, h3, -, h5⟩ := key hs.2 hi
    have hm : modField b ≠ 3 := fun h => by rw [h3, hs.1] at h; cases h
    exact ⟨_, rfl, by simp only [encodeModRM, h1, List.cons_append, decodeEntry, hm, if_false, h5]⟩
  · simp only [beq_iff_eq] at he
    simp only [Shape.wf, Bool.and_eq_true, beq_iff_eq] at hs
    obtain ⟨b, tail, h1, h2, -, -, h5⟩ := key hs.2 hi
    rw [hs.1] at h1 h2
    exact ⟨_, rfl, by simp only [encodeModRM, h1, List.cons_append, decodeEntry, h2, he, h5]⟩
  · simp only [beq_iff_eq] at he
    simp only [Shape.wf, Bool.and_eq_true, beq_iff_eq] at hs
    obtain ⟨b, tail, h1, h2, h3, -, h5⟩ := key hs.2.2 hi
    have hm : modField b ≠ 3 := fun h => by rw [h3, hs.2.1] at h; cases h
    rw [hs.1] at h1 h2
    exact ⟨_, rfl, by simp only [encodeModRM, h1, List.cons_append, decodeEntry, hm, if_false, h2, he, h5]⟩
  · rename_i n
    simp only [List.all_eq_true, beq_iff_eq] at he
    simp only [Shape.wf, Bool.and_eq_true, beq_iff_eq, Bool.not_eq_true'] at hs
    cases hrm : o.rm with
    | mem m => rw [hrm] at hs; cases hs.2
    | reg k =>
      obtain ⟨b, tail, h1, h2, h3, h4, h5⟩ := key (by rw [hrm]; rfl) hi
      rw [hs.1] at h1 h2
      refine ⟨_, rfl, ?_⟩
      simp only [encodeModRM, h1, List.cons_append, decodeEntry, h3.2 hs.2, if_true, h2, h4 k hrm,
        he k (mem_regFields k), h5]
  · simp only [beq_iff_eq] at he
    simp only [Shape.wf, Bool.and_eq_true, beq_iff_eq] at hs
    obtain ⟨b, tail, h1, h2, h3, h4, h5⟩ := key (by rw [hs.2]; rfl) hi
    rw [hs.1, hs.2] at h1
    rw [hs.1] at h2
    refine ⟨_, rfl, ?_⟩
    simp only [encodeModRM, h1, List.cons_append, decodeEntry, h3.2 (by rw [hs.2]; rfl), if_true, h2, h4 _ hs.2,
      he, h5]
  · cases he

theorem prefixEffect_none {b : Byte} (h : (prefixEffect b noPrefixes).isNone = true) (p : Prefixes) :
    prefixEffect b p = none := by
  unfold prefixEffect at h ⊢
  split at h <;> first | rfl | cases h

theorem byteReads_decode {i : Instr} {osz : Bool} {o : Operands} {b : Byte} (rest : List Byte)
    (h : byteReads i b = true) (hwf : i.wfWith osz o = true)
    (hr : i.row.shape = .plusR → rmField b = o.reg) :
    decodeOpcode osz (b :: (encodeModRM i.row.shape o ++ (encodeImm i.row.imm osz o ++ rest))) = .ok (i, o, rest) := by
  simp only [byteReads, Bool.and_eq_true, beq_iff_eq, bne_iff_ne] at h
  simp only [Instr.wfWith, Bool.and_eq_true] at hwf
  obtain ⟨e', he, hd⟩ := decodeEntry_encode (key := .one b) rest h.2.2 hwf.2.1 hwf.2.2 hr
  have ho : (osz && !honours16 (.one b)) = false := by
    rw [h.2.1]
    have := hwf.1
    revert this
    cases osz <;> cases i.row.opsize16 <;> simp
  simp only [decodeOpcode, h.1.2, if_false, he, decodeKey, ho, Bool.false_eq_true, hd]

/-- The decoder reads back the body of every instruction whose row the opcode maps lead to. -/
theorem decodeOpcode_encodeBody {i : Instr} {osz : Bool} {o : Operands} (rest : List Byte)
    (h : rowReads i = true) (hwf : i.wfWith osz o = true) :
    decodeOpcode osz (encodeBody i osz o ++ rest) = .ok (i, o, rest) := by
  simp only [encodeBody, List.append_assoc]
  unfold rowReads at h
  unfold encodeKey
  split at h
  · rename_i b hk hs
    simp only [List.all_eq_true, Bool.and_eq_true, beq_iff_eq] at h
    have := h o.reg (mem_regFields _)
    simp only [hk, hs]
    simpa only [hs, List.cons_append, List.nil_append] using byteReads_decode rest this.2 hwf fun _ => this.1
  · rename_i b hk hs
    have := byteReads_decode rest h hwf fun hh => absurd hh hs
    simp only [hk]
    exact this
  · cases h
  · rename_i b hk hs
    simp only [Bool.and_eq_true, beq_iff_eq] at h
    simp only [Instr.wfWith, Bool.and_eq_true] at hwf
    obtain ⟨e', he, hd⟩ := decodeEntry_encode (key := .two b) (opcode := b) rest h.2 hwf.2.1 hwf.2.2
      fun hh => absurd hh hs
    have ho : (osz && !honours16 (.two b)) = false := by
      rw [h.1]
      have := hwf.1
      revert this
      cases osz <;> cases i.row.opsize16 <;> simp
    simp only [hk, List.cons_append, List.nil_append, decodeOpcode, if_true, he, decodeKey, ho, Bool.false_eq_true,
      if_false, hd]

/-! ### The first byte, and the prefixes -/

/-- The opcode maps lead to every row by its description. -/
theorem rowReads_all (i : Instr) : rowReads i = true := by
  cases i <;> decide

theorem head_byteReads {i : Instr} {b : Byte} (h : byteReads i b = true) :
    (prefixEffect b noPrefixes).isNone = true := by
  simp only [byteReads, Bool.and_eq_true] at h
  exact h.1.1

/-- The first byte of a body is no prefix. -/
theorem encodeBody_head (i : Instr) (osz : Bool) (o : Operands) :
    ∃ (b : Byte) (tail : List Byte), encodeBody i osz o = b :: tail ∧
      (prefixEffect b noPrefixes).isNone = true := by
  have h := rowReads_all i
  unfold rowReads at h
  unfold encodeBody encodeKey
  split at h
  · rename_i b hk hs
    simp only [List.all_eq_true, Bool.and_eq_true, beq_iff_eq] at h
    simp only [hk, hs]
    exact ⟨_, _, rfl, head_byteReads (h o.reg (mem_regFields _)).2⟩
  · rename_i b hk hs
    simp only [hk]
    exact ⟨_, _, rfl, head_byteReads h⟩
  · cases h
  · rename_i b hk hs
    simp only [hk]
    exact ⟨_, _, rfl, rfl⟩

/-- The scan stops at a byte that is no prefix (R102). -/
theorem scan_stop {b : Byte} (h : (prefixEffect b noPrefixes).isNone = true) (p : Prefixes) (rest : List Byte) :
    scanPrefixes p (b :: rest) = (p, b :: rest) := by
  simp only [scanPrefixes, prefixEffect_none h]

theorem scan_cons {a : Byte} {p q : Prefixes} (h : prefixEffect a p = some q) (rest : List Byte) :
    scanPrefixes p (a :: rest) = scanPrefixes q rest := by
  simp only [scanPrefixes, h]

/-- The scan reads back the encoded prefixes. -/
theorem scan_encode {b : Byte} (h : (prefixEffect b noPrefixes).isNone = true) (p : Prefixes) (rest : List Byte) :
    scanPrefixes noPrefixes (encodePrefixes p ++ b :: rest) = (p, b :: rest) := by
  obtain ⟨seg, osz, rep⟩ := p
  cases seg <;> cases osz <;> cases rep <;> exact scan_stop h _ _

end Sys2Proof.Laws
end

