-- ==== Sys2Proof/Laws/Decoded.lean ====
section
/-! SUPPORT. What the decoder answers (spec/30_encoding.md R100 to R151): its operands are well formed, and it leaves
the bytes after those it read. -/

namespace Sys2Proof.Laws

/-- An entry agrees with the rows it leads to. -/
def entryGood (key : OpKey) (e : Entry) : Bool :=
  let ok (i : Instr) (s : Shape) : Bool := i.row.shape == s && i.row.opsize16 == honours16 key
  match e with
  | .plain i => ok i .none
  | .plusR i => ok i .plusR
  | .modrm i => ok i .reg
  | .mem i => ok i .mem
  | .group g => regFields.all fun n => (g n).all fun i => ok i (.ext n)
  | .x87 m r => regFields.all fun n => ((m n).all fun i => ok i (.extMem n)) &&
      regFields.all fun k => (r n k).all fun i => ok i (.st n) || ok i (.fixed n k)

theorem primary_good : ∀ b : Byte, (primary b).all (entryGood (.one b)) = true := by decide +kernel
theorem secondary_good : ∀ b : Byte, (secondary b).all (entryGood (.two b)) = true := by decide +kernel

theorem take4_suffix {l : List Byte} {w : Word} {r : List Byte} (h : take4 l = .ok (w, r)) : r <:+ l := by
  unfold take4 at h
  split at h
  · cases h; exact ⟨[_, _, _, _], rfl⟩
  · cases h

theorem isSextByte_sext (b : Byte) : isSextByte (b.signExtend 32) = true := by
  revert b; decide +kernel

theorem decodeDisp_ok {mod : BitVec 2} {l : List Byte} {d : Disp} {r : List Byte} (h : decodeDisp mod l = .ok (d, r)) :
    r <:+ l ∧ (mod ≠ 0 → d ≠ .none) := by
  unfold decodeDisp at h
  split at h
  · rename_i hm
    cases h
    exact ⟨List.suffix_refl _, fun hh => absurd (BitVec.eq_of_toNat_eq hm) hh⟩
  · split at h
    · cases h; exact ⟨⟨[_], rfl⟩, fun _ hh => by cases hh⟩
    · cases h
  · split at h
    · rename_i ht; cases h; exact ⟨take4_suffix ht, fun _ hh => by cases hh⟩
    · cases h

theorem decodeMem_ok {m : Byte} {l : List Byte} {o : MemOp} {r : List Byte} (h : decodeMem m l = .ok (o, r)) :
    r <:+ l ∧ o.wf = true := by
  unfold decodeMem at h
  split at h
  · unfold decodeSib at h
    split at h
    · cases h
    · split at h
      · split at h
        · rename_i ht; cases h; exact ⟨(take4_suffix ht).trans ⟨[_], rfl⟩, rfl⟩
        · cases h
      · rename_i hn
        split at h
        · rename_i ht; cases h
          obtain ⟨h1, h2⟩ := decodeDisp_ok ht
          refine ⟨h1.trans ⟨[_], rfl⟩, ?_⟩
          simp only [MemOp.wf, Bool.or_eq_true, bne_iff_ne]
          by_cases h5 : modField m = 0
          · exact .inl fun hh => hn ⟨h5, hh⟩
          · exact .inr (h2 h5)
        · cases h
  · rename_i h4
    split at h
    · split at h
      · rename_i ht; cases h; exact ⟨take4_suffix ht, rfl⟩
      · cases h
    · rename_i hn
      split at h
      · rename_i ht; cases h
        obtain ⟨h1, h2⟩ := decodeDisp_ok ht
        refine ⟨h1, ?_⟩
        simp only [MemOp.wf, Bool.or_eq_true, bne_iff_ne, Bool.and_eq_true]
        refine ⟨h4, ?_⟩
        by_cases h5 : modField m = 0
        · exact .inl fun hh => hn ⟨h5, hh⟩
        · exact .inr (h2 h5)
      · cases h

theorem decodeRM_ok {m : Byte} {l : List Byte} {o : RM} {r : List Byte} (h : decodeRM m l = .ok (o, r)) :
    r <:+ l ∧ o.wf = true ∧ (modField m = 3 → o = .reg (rmField m)) ∧ (modField m ≠ 3 → o.isMem = true) := by
  unfold decodeRM at h
  split at h
  · rename_i h3
    cases h
    exact ⟨List.suffix_refl _, rfl, fun _ => rfl, fun hh => absurd h3 hh⟩
  · rename_i h3
    split at h
    · rename_i ht; cases h
      exact ⟨(decodeMem_ok ht).1, (decodeMem_ok ht).2, fun hh => absurd hh h3, fun _ => rfl⟩
    · cases h

theorem decodeImm_ok {k : ImmKind} {osz : Bool} {reg : Reg} {rm : RM} {l : List Byte} {o : Operands} {r : List Byte}
    (h : decodeImm k osz ⟨reg, rm, 0, 0, 0⟩ l = .ok (o, r)) :
    r <:+ l ∧ k.wf osz o = true ∧ o.reg = reg ∧ o.rm = rm := by
  have half : ∀ {o : Operands}, decodeImm.takeHalf ⟨reg, rm, 0, 0, 0⟩ l = .ok (o, r) →
      r <:+ l ∧ o.reg = reg ∧ o.rm = rm ∧ o.rel = 0 ∧ o.moffs = 0 ∧ o.imm.toNat < 65536 := by
    intro o h
    unfold decodeImm.takeHalf at h
    split at h
    · cases h
      refine ⟨⟨[_, _], rfl⟩, rfl, rfl, rfl, rfl, ?_⟩
      simp only [BitVec.toNat_setWidth]
      exact lt_of_le_of_lt (Nat.mod_le _ _) (BitVec.isLt _)
    · cases h
  have word : ∀ {o : Operands}, decodeImm.takeWord ⟨reg, rm, 0, 0, 0⟩ l = .ok (o, r) →
      r <:+ l ∧ o.reg = reg ∧ o.rm = rm ∧ o.rel = 0 ∧ o.moffs = 0 := by
    intro o h
    unfold decodeImm.takeWord at h
    split at h
    · rename_i ht; cases h; exact ⟨take4_suffix ht, rfl, rfl, rfl, rfl⟩
    · cases h
  cases k <;> simp only [decodeImm] at h
  case none => cases h; exact ⟨List.suffix_refl _, rfl, rfl, rfl⟩
  case ib =>
    split at h
    · rename_i b _; cases h
      refine ⟨⟨[_], rfl⟩, ?_, rfl, rfl⟩
      have := b.isLt
      simp only [ImmKind.wf, BitVec.toNat_setWidth]
      simp; omega
    · cases h
  case ibSext =>
    split at h
    · cases h
      exact ⟨⟨[_], rfl⟩, by simp [ImmKind.wf, isSextByte_sext], rfl, rfl⟩
    · cases h
  case iw =>
    obtain ⟨h1, h2, h3, h4, h5, h6⟩ := half h
    exact ⟨h1, by simp [ImmKind.wf, h4, h5, h6], h2, h3⟩
  case id =>
    obtain ⟨h1, h2, h3, h4, h5⟩ := word h
    exact ⟨h1, by simp [ImmKind.wf, h4, h5], h2, h3⟩
  case idOrIw =>
    split at h
    · obtain ⟨h1, h2, h3, h4, h5, h6⟩ := half h
      exact ⟨h1, by simp [ImmKind.wf, h4, h5, h6], h2, h3⟩
    · obtain ⟨h1, h2, h3, h4, h5⟩ := word h
      exact ⟨h1, by simp [ImmKind.wf, *], h2, h3⟩
  case rel8 =>
    split at h
    · cases h
      exact ⟨⟨[_], rfl⟩, by simp [ImmKind.wf, isSextByte_sext], rfl, rfl⟩
    · cases h
  case rel32 =>
    split at h
    · rename_i ht; cases h; exact ⟨take4_suffix ht, rfl, rfl, rfl⟩
    · cases h
  case moffs32 =>
    split at h
    · rename_i ht; cases h; exact ⟨take4_suffix ht, rfl, rfl, rfl⟩
    · cases h

/-- What an entry decodes is well formed. -/
def Good (osz : Bool) (l : List Byte) (r : Except DecodeError (Instr × Operands × List Byte)) : Prop :=
  ∀ i o rest, r = .ok (i, o, rest) → rest <:+ l ∧ i.wfWith osz o = true

theorem good_finish {i : Instr} {osz : Bool} {reg : Reg} {rm : RM} {l : List Byte}
    (h16 : osz = true → i.row.opsize16 = true)
    (hs : ∀ o : Operands, o.reg = reg → o.rm = rm → i.row.shape.wf o = true) :
    Good osz l (finishRow i osz reg rm l) := by
  intro j o rest h
  unfold finishRow at h
  split at h
  · rename_i ht; cases h
    obtain ⟨h1, h2, h3, h4⟩ := decodeImm_ok ht
    refine ⟨h1, ?_⟩
    simp only [Instr.wfWith, Bool.and_eq_true, Bool.or_eq_true, Bool.not_eq_true']
    refine ⟨?_, hs o h3 h4, h2⟩
    cases osz
    · exact .inl rfl
    · exact .inr (h16 rfl)
  · cases h

theorem good_withRM {i : Instr} {osz : Bool} {m : Byte} {l : List Byte}
    (h16 : osz = true → i.row.opsize16 = true)
    (hs : ∀ o : Operands, o.reg = regField m → o.rm.wf = true → (modField m = 3 → o.rm = .reg (rmField m)) →
      (modField m ≠ 3 → o.rm.isMem = true) → i.row.shape.wf o = true) :
    Good osz (m :: l) (decodeWithRM i osz m l) := by
  intro j o rest h
  unfold decodeWithRM at h
  split at h
  · rename_i rm l' ht
    obtain ⟨h1, h2, h3, h4⟩ := decodeRM_ok ht
    obtain ⟨h5, h6⟩ := good_finish (reg := regField m) (rm := rm) h16 (fun o ho hrm => hs o ho (hrm ▸ h2)
      (fun h => hrm ▸ h3 h) (fun h => hrm ▸ h4 h)) j o rest h
    exact ⟨(h5.trans h1).trans ⟨[m], rfl⟩, h6⟩
  · cases h

theorem good_error {osz : Bool} {l : List Byte} (e : DecodeError) : Good osz l (.error e) :=
  fun _ _ _ h => by cases h

theorem good_entry {key : OpKey} {b : Byte} {e : Entry} {osz : Bool} {l : List Byte}
    (he : entryGood key e = true) (h16 : osz = true → honours16 key = true) :
    Good osz l (decodeEntry key b e osz l) := by
  unfold entryGood at he
  simp only at he
  cases e with
  | plain i =>
    simp only [Bool.and_eq_true, beq_iff_eq] at he
    exact good_finish (fun h => he.2.trans (h16 h)) fun o h1 h2 => by simp [he.1, Shape.wf, h1, h2]
  | plusR i =>
    simp only [Bool.and_eq_true, beq_iff_eq] at he
    exact good_finish (fun h => he.2.trans (h16 h)) fun o h1 h2 => by simp [he.1, Shape.wf, h2]
  | modrm i =>
    simp only [Bool.and_eq_true, beq_iff_eq] at he
    unfold decodeEntry
    cases l with
    | nil => exact good_error _
    | cons m l => exact good_withRM (fun h => he.2.trans (h16 h)) fun o _ h2 _ _ => by simp [he.1, Shape.wf, h2]
  | mem i =>
    simp only [Bool.and_eq_true, beq_iff_eq] at he
    unfold decodeEntry
    cases l with
    | nil => exact good_error _
    | cons m l =>
      simp only
      split
      · exact good_error _
      · rename_i hm
        exact good_withRM (fun h => he.2.trans (h16 h)) fun o _ h2 _ h4 => by simp [he.1, Shape.wf, h2, h4 hm]
  | group g =>
    simp only [List.all_eq_true, Bool.and_eq_true, beq_iff_eq, Option.all_eq_true] at he
    unfold decodeEntry
    cases l with
    | nil => exact good_error _
    | cons m l =>
      simp only
      split
      · rename_i i hg
        have he := he _ (mem_regFields _) i hg
        exact good_withRM (fun h => he.2.trans (h16 h)) fun o h1 h2 _ h4 => by simp [he.1, Shape.wf, h1, h2]
      · exact good_error _
  | x87 ms rs =>
    simp only [List.all_eq_true, Bool.and_eq_true, beq_iff_eq, Option.all_eq_true, Bool.or_eq_true] at he
    unfold decodeEntry
    cases l with
    | nil => exact good_error _
    | cons m l =>
      simp only
      split
      · rename_i i hg
        have he := he _ (mem_regFields (regField m))
        split at hg
        · rename_i h3
          rcases he.2 _ (mem_regFields (rmField m)) i hg with he | he
          · exact good_withRM (fun h => he.2.trans (h16 h)) fun o h1 h2 hr _ => by
              simp [he.1, Shape.wf, h1, hr h3, RM.isMem]
          · exact good_withRM (fun h => he.2.trans (h16 h)) fun o h1 h2 hr _ => by
              simp [he.1, Shape.wf, h1, hr h3]
        · rename_i h3
          have he := he.1 i hg
          exact good_withRM (fun h => he.2.trans (h16 h)) fun o h1 h2 _ hr => by
              simp [he.1, Shape.wf, h1, hr h3, h2]
      · exact good_error _

theorem good_key {key : OpKey} {b : Byte} {e : Option Entry} {osz : Bool} {l : List Byte}
    (he : e.all (entryGood key) = true) : Good osz l (decodeKey key b e osz l) := by
  cases e with
  | none => exact good_error _
  | some e =>
    unfold decodeKey
    simp only
    split
    · exact good_error _
    · rename_i h
      exact good_entry he fun ho => by simpa [ho] using h

theorem decodeOpcode_ok {osz : Bool} {l : List Byte} {i : Instr} {o : Operands} {rest : List Byte}
    (h : decodeOpcode osz l = .ok (i, o, rest)) :
    i.wfWith osz o = true ∧ ∃ b l', l = b :: l' ∧ rest <:+ l' := by
  unfold decodeOpcode at h
  split at h
  · cases h
  · split at h
    · split at h
      · cases h
      · obtain ⟨h1, h2⟩ := good_key (secondary_good _) _ _ _ h
        exact ⟨h2, _, _, rfl, h1.trans ⟨[_], rfl⟩⟩
    · obtain ⟨h1, h2⟩ := good_key (primary_good _) _ _ _ h
      exact ⟨h2, _, _, rfl, h1⟩

theorem scan_suffix (l : List Byte) : ∀ p, (scanPrefixes p l).2 <:+ l := by
  induction l with
  | nil => exact fun p => List.suffix_refl _
  | cons b l ih =>
    intro p
    unfold scanPrefixes
    split
    · exact (ih _).trans ⟨[b], rfl⟩
    · exact List.suffix_refl _

end Sys2Proof.Laws
end

