-- ==== Sys2Proof/Laws/X87.lean ====
section
/-! SUPPORT. What the operations on the x87 register stack do, each said once in the vocabulary of Claims. -/

namespace Sys2Proof.Laws

open Sys2Proof.Machine Sys2Proof.Claims

/-! ### Slots -/

/-- A physical slot by its index (R45). -/
theorem slot_eq (s : State) (p : BitVec 3) : slot s p.toNat = s.fpuStack[p.toNat]'p.isLt := by
  have h : p.toNat < s.fpuStack.toList.length := by
    rw [Vector.length_toList]
    exact p.isLt
  simp only [slot, List.getD_eq_getElem?_getD, List.getElem?_eq_getElem h, Option.getD_some,
    Vector.getElem_toList]

/-- The slot of ST(i) (R47). -/
theorem phys_toNat (s : State) (i : Reg) : (s.phys i).toNat = slotOf s i.toNat := by
  simp only [State.phys, slotOf, BitVec.toNat_add]

theorem st_eq (s : State) (i : Reg) : s.st i = slot s (slotOf s i.toNat) := by
  rw [State.st, ← phys_toNat, slot_eq]

theorem slotOf_lt (s : State) (i : Nat) : slotOf s i < 8 := Nat.mod_lt _ (by decide)

/-- A slot after one slot was written (R47). -/
theorem slot_setSlot (s : State) (p : BitVec 3) (v : F64) (n : Nat) :
    slot (s.setSlot p v) n = if n = p.toNat then v else slot s n := by
  by_cases hn : n < 8
  · have e : n = (BitVec.ofNat 3 n).toNat := by
      rw [BitVec.toNat_ofNat, Nat.mod_eq_of_lt (by omega)]
    rw [e, slot_eq, slot_eq]
    simp only [State.setSlot, Vector.getElem_set, eq_comm]
  · have h1 : slot (s.setSlot p v) n = 0 := by
      simp only [slot, List.getD_eq_getElem?_getD]
      rw [List.getElem?_eq_none (by rw [Vector.length_toList]; omega)]
      rfl
    have h2 : slot s n = 0 := by
      simp only [slot, List.getD_eq_getElem?_getD]
      rw [List.getElem?_eq_none (by rw [Vector.length_toList]; omega)]
      rfl
    have : n ≠ p.toNat := by
      have := p.isLt
      omega
    rw [h1, h2, if_neg this]

/-- `slot` speaks of the stack alone. -/
theorem slot_congr {s t : State} (h : t.fpuStack = s.fpuStack) (n : Nat) : slot t n = slot s n := by
  simp only [slot, h]

/-! ### Tags -/

/-- The tag of a slot, read as two bits of the tag word (R52). -/
theorem tagBits_eq (s : State) (p : BitVec 3) : tagBits s p.toNat = (s.tag p).toNat := by
  rw [State.tag, BitVec.extractLsb'_toNat, Nat.shiftRight_eq_div_pow, pow_mul]
  rfl

theorem tagBits_congr {s t : State} (h : t.fpuTag = s.fpuTag) (n : Nat) : tagBits t n = tagBits s n := by
  simp only [tagBits, h]

/-- The tag word after one tag was written (R52). -/
theorem tag_setTag (s : State) (p q : BitVec 3) (t : BitVec 2) :
    (s.setTag p t).tag q = if q = p then t else s.tag q := by
  have key : ∀ (w : BitVec 16) (p q : BitVec 3) (t : BitVec 2), ∀ k : Nat, k < 2 →
      (((w &&& ~~~(3#16 <<< (2 * p.toNat))) ||| (t.setWidth 16 <<< (2 * p.toNat))).extractLsb' (2 * q.toNat) 2).getLsbD k =
        (if q = p then t else w.extractLsb' (2 * q.toNat) 2).getLsbD k := by
    intro w p q t k hk
    have hp := p.isLt
    have hq := q.isLt
    have h3 : ∀ j : Nat, (3#16).getLsbD j = decide (j < 2) := by
      intro j
      by_cases hj : j < 16
      · interval_cases j <;> rfl
      · rw [BitVec.getLsbD_of_ge _ _ (by omega), decide_eq_false (by omega)]
    have ht : ∀ j : Nat, (t.setWidth 16).getLsbD j = (decide (j < 2) && t.getLsbD j) := by
      intro j
      rw [BitVec.getLsbD_setWidth]
      by_cases hj : j < 2
      · simp [hj, show j < 16 by omega]
      · rw [BitVec.getLsbD_of_ge t _ (by omega)]; simp
    rw [BitVec.getLsbD_extractLsb', BitVec.getLsbD_or, BitVec.getLsbD_and, BitVec.getLsbD_not,
      BitVec.getLsbD_shiftLeft, BitVec.getLsbD_shiftLeft, h3, ht]
    have b1 : 2 * q.toNat + k < 16 := by omega
    simp only [hk, b1, decide_true, Bool.true_and]
    by_cases hqp : q = p
    · subst hqp
      rw [if_pos rfl]
      have c1 : ¬ 2 * q.toNat + k < 2 * q.toNat := by omega
      have c2 : 2 * q.toNat + k - 2 * q.toNat = k := by omega
      simp [c1, c2, hk]
    · rw [if_neg hqp, BitVec.getLsbD_extractLsb']
      have hne : q.toNat ≠ p.toNat := fun h => hqp (BitVec.eq_of_toNat_eq h)
      by_cases c : 2 * q.toNat + k < 2 * p.toNat
      · simp [c, hk]
      · have d : ¬ 2 * q.toNat + k - 2 * p.toNat < 2 := by omega
        simp [c, d, hk]
  apply BitVec.eq_of_getLsbD_eq
  intro k hk
  exact key s.fpuTag p q t k hk

/-- The tags, by number, after one tag was written (R52). -/
theorem tagBits_setTag (s : State) (p : BitVec 3) (t : BitVec 2) {n : Nat} (hn : n < 8) :
    tagBits (s.setTag p t) n = if n = p.toNat then t.toNat else tagBits s n := by
  have e : n = (BitVec.ofNat 3 n).toNat := by
    rw [BitVec.toNat_ofNat, Nat.mod_eq_of_lt (by omega)]
  rw [e, tagBits_eq, tagBits_eq, tag_setTag]
  by_cases h : BitVec.ofNat 3 n = p
  · simp [h]
  · rw [if_neg h, if_neg (fun hc => h (BitVec.eq_of_toNat_eq hc))]

/-! ### TOP -/

/-- The status bits outside TOP are those of the word (R50). -/
theorem getLsbD_withTop (w : Half) (t : BitVec 3) {k : Nat} (h : k < 11 ∨ 14 ≤ k) :
    (withTop w t).getLsbD k = w.getLsbD k := by
  rw [withTop, BitVec.getLsbD_append, BitVec.getLsbD_append]
  by_cases h1 : k < 11
  · simp [h1]
  · have h2 : ¬k - 11 < 3 := by omega
    simp only [h1, if_false, h2, BitVec.getLsbD_extractLsb', show 14 + (k - 11 - 3) = k by omega]
    by_cases hk : k < 16
    · simp [show k - 11 - 3 < 2 by omega]
    · rw [BitVec.getLsbD_of_ge w k (by omega), Bool.and_false]

/-- The TOP field of a status word (R50). -/
theorem withTop_top (w : Half) (t : BitVec 3) : (withTop w t).extractLsb' 11 3 = t := by
  apply BitVec.eq_of_getLsbD_eq
  intro k hk
  rw [withTop, BitVec.getLsbD_extractLsb', BitVec.getLsbD_append, BitVec.getLsbD_append]
  have h1 : ¬ 11 + k < 11 := by omega
  have h2 : 11 + k - 11 = k := by omega
  simp [h1, h2, hk]

/-- A status word with its TOP replaced keeps every other bit (R50). -/
theorem withTop_other (w : Half) (t : BitVec 3) {k : Nat} (hk : k < 11 ∨ 14 ≤ k) :
    (withTop w t).getLsbD k = w.getLsbD k := by
  rw [withTop, BitVec.getLsbD_append, BitVec.getLsbD_append, BitVec.getLsbD_extractLsb',
    BitVec.getLsbD_extractLsb']
  by_cases h : k < 11
  · simp [h]
  · have h3 : ¬ k - 11 < 3 := by omega
    have e : 14 + (k - 11 - 3) = k := by omega
    by_cases h16 : k < 16
    · have : k - 11 - 3 < 2 := by omega
      simp [h, h3, e, this]
    · rw [BitVec.getLsbD_of_ge w k (by omega)]
      simp [h, h3, e, BitVec.getLsbD_of_ge w k (by omega)]

/-- `setTop` (R48, R50). -/
theorem topIs_setTop (s : State) (t : BitVec 3) : TopIs s (s.setTop t) t.toNat :=
  ⟨rfl, withTop_top _ _, fun _ hk => withTop_other _ _ hk⟩

/-- `TopIs` speaks of TOP and the status word alone. -/
theorem TopIs.congr {s t t' : State} {n : Nat} (h : TopIs s t n) (h1 : t'.fpuTop = t.fpuTop)
    (h2 : t'.fpuStatus = t.fpuStatus) : TopIs s t' n := by
  unfold TopIs State.topSynced at h ⊢
  rwa [h1, h2]

/-! ### Push and pop -/

/-- What `fpush` leaves alone (R48). -/
theorem fpush_rest (s : State) (v : F64) :
    s.fpush v = { s with
      fpuStack := (s.fpush v).fpuStack, fpuTop := (s.fpush v).fpuTop, fpuStatus := (s.fpush v).fpuStatus,
      fpuTag := (s.fpush v).fpuTag } := rfl

/-- What `fpop` leaves alone (R48). -/
theorem fpop_rest (s : State) :
    s.fpop = { s with
      fpuTop := s.fpop.fpuTop, fpuStatus := s.fpop.fpuStatus, fpuTag := s.fpop.fpuTag } := rfl

/-- The slots after `fpush` (R48). -/
theorem slot_fpush (s : State) (v : F64) (n : Nat) :
    slot (s.fpush v) n = if n = (s.fpuTop - 1).toNat then v else slot s n :=
  slot_setSlot (s.setTop (s.fpuTop - 1)) _ v n

/-- The tags after `fpush` (R48, R52). -/
theorem tagBits_fpush (s : State) (v : F64) {n : Nat} (hn : n < 8) :
    tagBits (s.fpush v) n = if n = (s.fpuTop - 1).toNat then 0 else tagBits s n :=
  tagBits_setTag ((s.setTop (s.fpuTop - 1)).setSlot (s.fpuTop - 1) v) (s.fpuTop - 1) tagValid hn

/-- TOP after `fpush` (R48, R50). -/
theorem topIs_fpush (s : State) (v : F64) : TopIs s (s.fpush v) (s.fpuTop - 1).toNat :=
  TopIs.congr (topIs_setTop s (s.fpuTop - 1)) rfl rfl

/-- The tags after `fpop` (R48, R52). -/
theorem tagBits_fpop (s : State) {n : Nat} (hn : n < 8) :
    tagBits s.fpop n = if n = s.fpuTop.toNat then 3 else tagBits s n :=
  tagBits_setTag s s.fpuTop tagEmpty hn

/-- TOP after `fpop` (R48, R50). -/
theorem topIs_fpop (s : State) : TopIs s s.fpop (s.fpuTop + 1).toNat :=
  TopIs.congr (topIs_setTop s (s.fpuTop + 1)) rfl rfl

/-- The slot number below TOP. -/
theorem top_sub_one (t : BitVec 3) : (t - 1).toNat = (t.toNat + 7) % 8 := by
  rw [BitVec.toNat_sub]
  simp [Nat.add_comm]

/-- The slot number above TOP. -/
theorem top_add_one (t : BitVec 3) : (t + 1).toNat = (t.toNat + 1) % 8 := by
  rw [BitVec.toNat_add]
  rfl

/-! ### Ends -/

/-- A state that differs in the x87 fields and the draws alone, completed. -/
theorem x87Ended_of {s t : State}
    (h : t = { s with fpuStack := t.fpuStack, fpuTop := t.fpuTop, fpuStatus := t.fpuStatus,
                      fpuControl := t.fpuControl, fpuTag := t.fpuTag, draws := t.draws }) :
    X87Ended s t.complete := by
  obtain ⟨x, e, f, st, tp, fs, fc, ft, hl, ic, sg, os, rp, nx, op, m, te, cf, dr⟩ := t
  cases h
  exact ⟨⟨rfl, rfl, ⟨rfl, rfl, rfl, rfl, rfl⟩, rfl, rfl, rfl⟩, fun _ => rfl, fun _ => rfl, rfl⟩

/-! ### Values -/

/-- What `settle` gives is a value of the result (R15). -/
theorem settled_settle (s : State) (r : Option F64) {t : State} (h : t.draws = (settle s r).1.draws) :
    Settled s t r (settle s r).2 := by
  cases r with
  | some v => exact ⟨rfl, h⟩
  | none =>
    refine ⟨?_, h⟩
    show isNan (nanResult s.draws) = true
    unfold nanResult
    split
    · assumption
    · decide

/-- `settle` counts draws and changes nothing else (R15). -/
theorem settle_rest (s : State) (r : Option F64) :
    (settle s r).1 = { s with draws := (settle s r).1.draws } := by
  cases r <;> rfl

/-- `ST(i) <- v` for a result (R450). -/
theorem slot_putResult (s : State) (i : Reg) (r : Option F64) (n : Nat) :
    slot (putResult s i r) n = if n = slotOf s i.toNat then (settle s r).2 else slot s n := by
  have h1 : (settle s r).1.phys i = s.phys i := by rw [settle_rest]; rfl
  have h2 : ∀ n, slot (settle s r).1 n = slot s n := fun n => slot_congr (by rw [settle_rest]) n
  unfold putResult State.setSt
  rw [slot_setSlot, h1, phys_toNat, h2]

/-- What `putResult` leaves alone (R450). -/
theorem putResult_rest (s : State) (i : Reg) (r : Option F64) :
    putResult s i r = { s with
      fpuStack := (putResult s i r).fpuStack, draws := (settle s r).1.draws } := by
  cases r <;> rfl

/-! ### Comparison codes -/

/-- The status word after `SetCC` (R475). -/
theorem codes_setCc (s : State) (a b : F64) :
    let t := setCc s a b
    let o := fcompare a b
    t.fpuStatus.getLsbD 14 = (o == .eq || o == .un) ∧ t.fpuStatus.getLsbD 10 = (o == .un) ∧
      t.fpuStatus.getLsbD 9 = false ∧ t.fpuStatus.getLsbD 8 = (o == .lt || o == .un) ∧
      (∀ k : Nat, k ≠ 14 → k ≠ 10 → k ≠ 9 → k ≠ 8 → t.fpuStatus.getLsbD k = s.fpuStatus.getLsbD k) ∧
      t = { s with fpuStatus := t.fpuStatus } := by
  intro t o
  have h : t.fpuStatus = setBit (setBit (setBit (setBit s.fpuStatus 14 (o == .eq || o == .un)) 10 (o == .un)) 9 false) 8
      (o == .lt || o == .un) ∧ t = { s with fpuStatus := t.fpuStatus } := by
    show (setCc s a b).fpuStatus = _ ∧ setCc s a b = { s with fpuStatus := (setCc s a b).fpuStatus }
    unfold setCc
    cases ho : fcompare a b <;> simp [o, ho] <;> rfl
  rw [h.1]
  refine ⟨?_, ?_, ?_, ?_, fun k h1 h2 h3 h4 => ?_, by rw [← h.1]; exact h.2⟩
  · simp only [getLsbD_setBit]; simp
  · simp only [getLsbD_setBit]; simp
  · simp only [getLsbD_setBit]; simp
  · simp only [getLsbD_setBit]; simp
  · simp only [getLsbD_setBit]; simp [h1, h2, h3, h4]

/-- The flags after `SetEFL` (R485). -/
theorem flags_setEfl (s : State) (a b : F64) :
    let t := setEfl s a b
    let o := fcompare a b
    t.zf = (o == .eq || o == .un) ∧ t.cf = (o == .lt || o == .un) ∧ t.of = false ∧
      FlagsSameBut [0, 6, 11] s t ∧ t = { s with flags := t.flags } := by
  intro t o
  have h : t = ((s.setZf (o == .eq || o == .un)).setCf (o == .lt || o == .un)).setOf false := by
    show setEfl s a b = _
    unfold setEfl
    cases ho : fcompare a b <;> simp [o, ho] <;> rfl
  rw [h]
  refine ⟨?_, ?_, ?_, fun k hk => ?_, rfl⟩
  · simp only [State.zf, State.setZf, State.setCf, State.setOf, getLsbD_setBit]; simp
  · simp only [State.cf, State.setZf, State.setCf, State.setOf, getLsbD_setBit]; simp
  · simp only [State.of, State.setZf, State.setCf, State.setOf, getLsbD_setBit]; simp
  · simp only [List.mem_cons, List.not_mem_nil, or_false, not_or] at hk
    simp only [State.setZf, State.setCf, State.setOf, getLsbD_setBit]
    simp [hk]

end Sys2Proof.Laws
end

