-- ==== Sys2Proof/Laws/Exec.lean ====
section
/-! SUPPORT. What executing an instruction can do to a state, said once for all instructions: `exec_ends`. -/

namespace Sys2Proof.Laws

open Sys2Proof.Machine Sys2Proof.Claims

/-! ### Work on a state -/

/-- What the work of an instruction, before its end, keeps of the state `s` it began in. -/
structure Worked (s u : State) : Prop where
  eip : u.eip = s.eip
  next : u.next = s.next
  count : u.instrCount = s.instrCount
  config : u.config = s.config
  terminal : u.terminal = s.terminal
  halted : u.halted = s.halted
  memory : s.memOk → u.memOk
  top : s.topSynced → u.topSynced
  flags : FlagsSameBut [0, 6, 7, 10, 11] s u

theorem worked_refl (s : State) : Worked s s :=
  ⟨rfl, rfl, rfl, rfl, rfl, rfl, id, id, fun _ _ => rfl⟩

theorem worked_trans {s u v : State} (h : Worked s u) (k : Worked u v) : Worked s v where
  eip := k.eip.trans h.eip
  next := k.next.trans h.next
  count := k.count.trans h.count
  config := k.config.trans h.config
  terminal := k.terminal.trans h.terminal
  halted := k.halted.trans h.halted
  memory hm := k.memory (h.memory hm)
  top ht := k.top (h.top ht)
  flags i hi := (k.flags i hi).trans (h.flags i hi)

/-- General registers, slots, tags, the control word and the draws are free. -/
theorem worked_of {s u : State}
    (h : u = { s with x := u.x, fpuStack := u.fpuStack, fpuControl := u.fpuControl, fpuTag := u.fpuTag,
                      draws := u.draws }) : Worked s u := by
  rw [h]
  exact ⟨rfl, rfl, rfl, rfl, rfl, rfl, id, id, fun _ _ => rfl⟩

theorem worked_setGpr (s : State) (i : Reg) (v : Word) : Worked s (s.setGpr i v) := worked_of rfl

theorem worked_setReg {w : Nat} {acc : Access w} (hacc : Faithful acc) (s : State) (i : Reg) (v : BitVec w) :
    Worked s (acc.setReg s i v) := by
  rw [hacc.rest]
  exact worked_of rfl

theorem worked_setR16 (s : State) (i : Reg) (v : Half) : Worked s (s.setR16 i v) := worked_of rfl

/-- A flags word that differs in the listed bits alone. -/
theorem worked_setFlags (s : State) {f : BitVec 32} (h : FlagsSameBut [0, 6, 7, 10, 11] s { s with flags := f }) :
    Worked s { s with flags := f } :=
  ⟨rfl, rfl, rfl, rfl, rfl, rfl, id, id, h⟩

/-- One of the five flags written. -/
theorem worked_setBit (s : State) {n : Nat} (b : Bool) (hn : n ∈ [0, 6, 7, 10, 11]) :
    Worked s { s with flags := setBit s.flags n b } := by
  apply worked_setFlags
  intro k hk
  exact getLsbD_setBit_other _ _ (fun h => hk (h ▸ hn))

theorem worked_setCf (s : State) (b : Bool) : Worked s (s.setCf b) := worked_setBit s b (by decide)
theorem worked_setZf (s : State) (b : Bool) : Worked s (s.setZf b) := worked_setBit s b (by decide)
theorem worked_setSf (s : State) (b : Bool) : Worked s (s.setSf b) := worked_setBit s b (by decide)
theorem worked_setDf (s : State) (b : Bool) : Worked s (s.setDf b) := worked_setBit s b (by decide)
theorem worked_setOf (s : State) (b : Bool) : Worked s (s.setOf b) := worked_setBit s b (by decide)

theorem worked_setZs {w : Nat} (s : State) (r : BitVec w) : Worked s (s.setZs r) :=
  worked_trans (worked_setZf s _) (worked_setSf _ _)

theorem worked_setAlu {w : Nat} (s : State) (r : AluResult w) : Worked s (s.setAlu r) :=
  worked_trans (worked_trans (worked_setCf s _) (worked_setOf _ _)) (worked_setZs _ _)

theorem worked_setAluKeepCf {w : Nat} (s : State) (r : AluResult w) : Worked s (s.setAluKeepCf r) :=
  worked_trans (worked_setOf s _) (worked_setZs _ _)

theorem worked_setMul (s : State) (b : Bool) : Worked s (s.setMul b) :=
  worked_trans (worked_setCf s _) (worked_setOf _ _)

theorem worked_setShift {w : Nat} (s : State) (op : ShiftOp) (r : AluResult w) : Worked s (s.setShift op r) := by
  have h := worked_trans (worked_setCf s r.cf) (worked_setOf _ r.of)
  unfold State.setShift
  split
  · exact worked_trans h (worked_setZs _ _)
  · exact h

theorem worked_setTop (s : State) (t : BitVec 3) : Worked s (s.setTop t) :=
  ⟨rfl, rfl, rfl, rfl, rfl, rfl, id, fun _ => withTop_top _ _, fun _ _ => rfl⟩

theorem worked_fpush (s : State) (v : F64) : Worked s (s.fpush v) :=
  worked_trans (worked_setTop s (s.fpuTop - 1)) (worked_of rfl)

theorem worked_fpop (s : State) : Worked s s.fpop :=
  worked_trans (worked_of rfl : Worked s (s.setTag s.fpuTop tagEmpty)) (worked_setTop _ _)

/-- A status word that keeps its TOP field. -/
theorem worked_status (s : State) {w : Half} (h : ∀ k, k < 3 → w.getLsbD (11 + k) = s.fpuStatus.getLsbD (11 + k)) :
    Worked s { s with fpuStatus := w } := by
  refine ⟨rfl, rfl, rfl, rfl, rfl, rfl, id, fun ht => ?_, fun _ _ => rfl⟩
  unfold State.topSynced at ht ⊢
  rw [← ht]
  apply BitVec.eq_of_getLsbD_eq
  intro k hk
  rw [BitVec.getLsbD_extractLsb', BitVec.getLsbD_extractLsb', h k hk]

theorem worked_setCc (s : State) (a b : F64) : Worked s (setCc s a b) := by
  obtain ⟨-, -, -, -, h5, h6⟩ := codes_setCc s a b
  have := worked_status s (w := (setCc s a b).fpuStatus)
    (fun k hk => h5 (11 + k) (by omega) (by omega) (by omega) (by omega))
  rw [h6]
  exact this

theorem worked_setEfl (s : State) (a b : F64) : Worked s (setEfl s a b) := by
  obtain ⟨-, -, -, h4, h5⟩ := flags_setEfl s a b
  have h := worked_setFlags s (f := (setEfl s a b).flags) (fun k hk => h4 k (by
    simp only [List.mem_cons, List.not_mem_nil, or_false, not_or] at hk ⊢
    omega))
  rw [h5]
  exact h

theorem worked_settle (s : State) (r : Option F64) : Worked s (settle s r).1 := by
  cases r with
  | some v => exact worked_refl s
  | none => exact worked_of rfl

theorem worked_putResult (s : State) (i : Reg) (r : Option F64) : Worked s (putResult s i r) :=
  worked_trans (worked_settle s r) (worked_of rfl)

theorem worked_initFpu (s : State) : Worked s (initFpu s) :=
  ⟨rfl, rfl, rfl, rfl, rfl, rfl, id, fun _ => (by decide : (0 : Half).extractLsb' 11 3 = 0), fun _ _ => rfl⟩

theorem worked_clearExceptions (s : State) : Worked s { s with fpuStatus := s.fpuStatus &&& 0x7F00 } := by
  apply worked_status
  intro k hk
  rw [BitVec.getLsbD_and]
  have : (0x7F00 : Half).getLsbD (11 + k) = true := by interval_cases k <;> rfl
  rw [this, Bool.and_true]

theorem worked_writeLE (s : State) {a n : Nat} (v : Nat) (h : a + n ≤ s.config.memSize) :
    Worked s { s with mem := s.mem.writeLE a n v } :=
  ⟨rfl, rfl, rfl, rfl, rfl, rfl, fun hm => ⟨writeLE_wf _ _ _ hm.1, writeLE_within _ _ hm.2 h⟩, id, fun _ _ => rfl⟩

/-! ### Results -/

/-- Whatever the result is, if it is no fault it satisfies `P`. -/
def Sound {α : Type} (P : α → Prop) (r : Except Fault α) : Prop := ∀ a, r = .ok a → P a

theorem sound_ok {α : Type} {P : α → Prop} {a : α} (h : P a) : Sound P (.ok a) := by
  intro b hb
  cases hb
  exact h

theorem sound_error {α : Type} {P : α → Prop} (f : Fault) : Sound P (.error f) := by
  intro b hb
  cases hb

theorem sound_bind {α β : Type} {P : α → Prop} {Q : β → Prop} {r : Except Fault α} {k : α → Except Fault β}
    (h : Sound P r) (hk : ∀ a, P a → Sound Q (k a)) : Sound Q (r >>= k) := by
  cases r with
  | error f => exact sound_error f
  | ok a => exact hk a (h a rfl)

theorem sound_memRead (w : Nat) (s : State) (a : Word) : Sound (fun _ => True) (s.memRead w a) := fun _ _ => trivial

theorem sound_memWrite {w : Nat} (s : State) (a : Word) (v : BitVec w) : Sound (Worked s) (s.memWrite a v) := by
  unfold State.memWrite
  split
  · rename_i h
    exact sound_ok (worked_writeLE s _ (of_decide_eq_true h))
  · exact sound_error _

theorem sound_readRm {w : Nat} (acc : Access w) (s : State) (rm : RM) : Sound (fun _ => True) (readRm acc s rm) :=
  fun _ _ => trivial

theorem sound_writeRm {w : Nat} {acc : Access w} (hacc : Faithful acc) (s : State) (rm : RM) (v : BitVec w) :
    Sound (Worked s) (writeRm acc s rm v) := by
  cases rm with
  | reg r => exact sound_ok (worked_setReg hacc s r v)
  | mem m => exact sound_memWrite s _ v

theorem sound_push32 (s : State) (v : Word) : Sound (Worked s) (push32 s v) :=
  sound_bind (sound_memWrite s _ v) fun _ h => sound_ok (worked_trans h (worked_setGpr _ _ _))

theorem sound_pop32 (s : State) : Sound (fun p => Worked s p.2) (pop32 s) :=
  sound_bind (sound_memRead 32 s _) fun _ _ => sound_ok (worked_setGpr _ _ _)

/-! ### Ends -/

/-- An instruction begun in `s` ended in `t`: its work was done, and it went to some address. -/
def Ends (s t : State) : Prop := ∃ (u : State) (a : Word), Worked s u ∧ t = u.jump a

theorem ends_complete {s u : State} (h : Worked s u) : Ends s u.complete := ⟨u, u.next, h, rfl⟩

theorem ends_jump {s u : State} (a : Word) (h : Worked s u) : Ends s (u.jump a) := ⟨u, a, h, rfl⟩

theorem ends_byOpsize {s : State} {r r' : Except Fault State} (h : Sound (Ends s) r) (h' : Sound (Ends s) r') :
    Sound (Ends s) (byOpsize s r r') := by
  unfold byOpsize
  split
  · exact h
  · exact h'

section
variable {w : Nat} {acc : Access w} (hacc : Faithful acc) (s : State)
include hacc

theorem ends_storeRm (v : BitVec w) : Sound (Ends s) (storeRm acc s v) :=
  sound_bind (sound_writeRm hacc s _ v) fun _ h => sound_ok (ends_complete h)

theorem ends_loadRm : Sound (Ends s) (loadRm acc s) :=
  sound_bind (sound_readRm acc s _) fun _ _ => sound_ok (ends_complete (worked_setReg hacc _ _ _))

theorem ends_loadImm : Ends s (loadImm acc s) := ends_complete (worked_setReg hacc _ _ _)

theorem ends_loadMoffs : Sound (Ends s) (loadMoffs acc s) :=
  sound_bind (sound_memRead w s _) fun _ _ => sound_ok (ends_complete (worked_setReg hacc _ _ _))

theorem ends_aluRm (op : AluOp) (src : BitVec w) : Sound (Ends s) (aluRm acc op src s) := by
  refine sound_bind (sound_readRm acc s _) fun a _ => ?_
  split
  · exact sound_ok (ends_complete (worked_setAlu s _))
  · exact sound_bind (sound_writeRm hacc s _ _) fun _ h =>
      sound_ok (ends_complete (worked_trans h (worked_setAlu _ _)))

theorem ends_aluReg (op : AluOp) (dst : Reg) (src : BitVec w) : Ends s (aluReg acc op dst src s) := by
  unfold aluReg
  refine ends_complete (worked_trans ?_ (worked_setAlu _ _))
  split
  · exact worked_refl s
  · exact worked_setReg hacc _ _ _

theorem ends_aluRegRm (op : AluOp) : Sound (Ends s) (aluRegRm acc op s) :=
  sound_bind (sound_readRm acc s _) fun _ _ => sound_ok (ends_aluReg hacc s op _ _)

theorem ends_unaryRm (f : BitVec w → AluResult w) (setFlags : State → AluResult w → State)
    (hset : ∀ t r, Worked t (setFlags t r)) : Sound (Ends s) (unaryRm acc f setFlags s) :=
  sound_bind (sound_readRm acc s _) fun _ _ => sound_bind (sound_writeRm hacc s _ _) fun _ h =>
    sound_ok (ends_complete (worked_trans h (hset _ _)))

theorem ends_notRm : Sound (Ends s) (notRm acc s) := ends_unaryRm hacc s _ _ fun t _ => worked_refl t

theorem ends_shiftRm (op : ShiftOp) (raw : Byte) : Sound (Ends s) (shiftRm acc op raw s) := by
  refine sound_bind (sound_readRm acc s _) fun a _ => ?_
  split
  · exact sound_ok (ends_complete (worked_refl s))
  · exact sound_bind (sound_writeRm hacc s _ _) fun _ h =>
      sound_ok (ends_complete (worked_trans h (worked_setShift _ _ _)))

end

section
variable (s : State)

theorem ends_storeMoffs {w : Nat} (acc : Access w) : Sound (Ends s) (storeMoffs acc s) :=
  sound_bind (sound_memWrite s _ _) fun _ h => sound_ok (ends_complete h)

theorem ends_loadExtended {w : Nat} (acc : Access w) (ext : BitVec w → Word) :
    Sound (Ends s) (loadExtended acc ext s) :=
  sound_bind (sound_readRm acc s _) fun _ _ => sound_ok (ends_complete (worked_setGpr _ _ _))

theorem ends_loadFar : Sound (Ends s) (loadFar s) :=
  sound_bind (sound_memRead 32 s _) fun _ _ => sound_ok (ends_complete (worked_setGpr _ _ _))

theorem ends_testRm {w : Nat} (acc : Access w) (src : BitVec w) : Sound (Ends s) (testRm acc src s) :=
  sound_bind (sound_readRm acc s _) fun _ _ => sound_ok (ends_complete (worked_setAlu _ _))

theorem ends_testAcc {w : Nat} (acc : Access w) (src : BitVec w) : Ends s (testAcc acc src s) :=
  ends_complete (worked_setAlu _ _)

theorem ends_unaryReg (f : Word → AluResult 32) (setFlags : State → AluResult 32 → State)
    (hset : ∀ t r, Worked t (setFlags t r)) : Ends s (unaryReg f setFlags s) :=
  ends_complete (worked_trans (worked_setGpr s _ _) (hset _ _))

theorem ends_mul8 : Sound (Ends s) (mul8 s) :=
  sound_bind (sound_readRm acc8 s _) fun _ _ =>
    sound_ok (ends_complete (worked_trans (worked_setR16 s _ _) (worked_setMul _ _)))

theorem ends_imul8 : Sound (Ends s) (imul8 s) :=
  sound_bind (sound_readRm acc8 s _) fun _ _ =>
    sound_ok (ends_complete (worked_trans (worked_setR16 s _ _) (worked_setMul _ _)))

theorem ends_mul32 : Sound (Ends s) (mul32 s) :=
  sound_bind (sound_readRm acc32 s _) fun _ _ =>
    sound_ok (ends_complete (worked_trans (worked_of rfl) (worked_setMul _ _)))

theorem ends_imul32 : Sound (Ends s) (imul32 s) :=
  sound_bind (sound_readRm acc32 s _) fun _ _ =>
    sound_ok (ends_complete (worked_trans (worked_of rfl) (worked_setMul _ _)))

theorem ends_imulReg (a : Word) : Sound (Ends s) (imulReg a s) :=
  sound_bind (sound_readRm acc32 s _) fun _ _ =>
    sound_ok (ends_complete (worked_trans (worked_setGpr s _ _) (worked_setMul _ _)))

theorem worked_setR8 (i : Reg) (v : Byte) : Worked s (s.setR8 i v) := worked_setReg faithful8 s i v

theorem ends_putDiv8 (qm : Byte × Byte) : Ends s (putDiv8 s qm) :=
  ends_complete (worked_trans (worked_setR8 s 0 qm.1) (worked_setR8 _ 4 qm.2))

theorem ends_putDiv32 (qm : Word × Word) : Ends s (putDiv32 s qm) :=
  ends_complete (worked_trans (worked_setGpr s _ _) (worked_setGpr _ _ _))

theorem ends_div8 : Sound (Ends s) (div8 s) :=
  sound_bind (sound_readRm acc8 s _) fun _ _ =>
    sound_bind (P := fun _ => True) (fun _ _ => trivial) fun qm _ => sound_ok (ends_putDiv8 s qm)

theorem ends_idiv8 : Sound (Ends s) (idiv8 s) :=
  sound_bind (sound_readRm acc8 s _) fun _ _ =>
    sound_bind (P := fun _ => True) (fun _ _ => trivial) fun qm _ => sound_ok (ends_putDiv8 s qm)

theorem ends_div32 : Sound (Ends s) (div32 s) :=
  sound_bind (sound_readRm acc32 s _) fun _ _ =>
    sound_bind (P := fun _ => True) (fun _ _ => trivial) fun qm _ => sound_ok (ends_putDiv32 s qm)

theorem ends_idiv32 : Sound (Ends s) (idiv32 s) :=
  sound_bind (sound_readRm acc32 s _) fun _ _ =>
    sound_bind (P := fun _ => True) (fun _ _ => trivial) fun qm _ => sound_ok (ends_putDiv32 s qm)

theorem ends_bitScan (find : Word → Nat) : Sound (Ends s) (bitScan find s) := by
  refine sound_bind (sound_readRm acc32 s _) fun v _ => ?_
  split
  · exact sound_ok (ends_complete (worked_setZf s true))
  · exact sound_ok (ends_complete (worked_trans (worked_setZf s false) (worked_setGpr _ _ _)))

theorem ends_pushValue (v : Word) : Sound (Ends s) (pushValue v s) :=
  sound_bind (sound_push32 s v) fun _ h => sound_ok (ends_complete h)

theorem ends_pushRm : Sound (Ends s) (pushRm s) :=
  sound_bind (sound_readRm acc32 s _) fun v _ => ends_pushValue s v

theorem ends_popReg : Sound (Ends s) (popReg s) :=
  sound_bind (sound_pop32 s) fun _ h => sound_ok (ends_complete (worked_trans h (worked_setGpr _ _ _)))

theorem ends_popRm : Sound (Ends s) (popRm s) :=
  sound_bind (sound_pop32 s) fun _ h => sound_bind (sound_writeRm faithful32 _ _ _) fun _ h' =>
    sound_ok (ends_complete (worked_trans h h'))

theorem ends_pushAll : Sound (Ends s) (pushAll s) :=
  sound_bind (sound_memWrite s _ _) fun _ h => sound_ok (ends_complete (worked_trans h (worked_setGpr _ _ _)))

theorem ends_popAll : Sound (Ends s) (popAll s) :=
  sound_bind (sound_memRead 256 s _) fun _ _ => sound_ok (ends_complete (worked_of rfl))

theorem ends_leaveFrame : Sound (Ends s) (leaveFrame s) :=
  sound_bind (sound_memRead 32 s _) fun _ _ => sound_ok (ends_complete (worked_of rfl))

theorem ends_jumpIf (c : Cond) : Ends s (jumpIf c s) := by
  unfold jumpIf
  split
  · exact ends_jump _ (worked_refl s)
  · exact ends_complete (worked_refl s)

theorem ends_jumpRm : Sound (Ends s) (jumpRm s) :=
  sound_bind (sound_readRm acc32 s _) fun t _ => sound_ok (ends_jump t (worked_refl s))

theorem ends_callTo (a : Word) : Sound (Ends s) (callTo a s) :=
  sound_bind (sound_push32 s _) fun _ h => sound_ok (ends_jump a h)

theorem ends_callRm : Sound (Ends s) (callRm s) :=
  sound_bind (sound_readRm acc32 s _) fun t _ => ends_callTo s t

theorem ends_returnBy (extra : Word) : Sound (Ends s) (returnBy extra s) :=
  sound_bind (sound_pop32 s) fun p h => sound_ok (ends_jump p.1 (worked_trans h (worked_setGpr _ _ _)))

theorem ends_setIf (c : Cond) : Sound (Ends s) (setIf c s) := ends_storeRm faithful8 s _

theorem ends_moveIf (c : Cond) : Sound (Ends s) (moveIf c s) := by
  refine sound_bind (sound_readRm acc32 s _) fun v _ => sound_ok (ends_complete ?_)
  split
  · exact worked_setGpr _ _ _
  · exact worked_refl s

theorem ends_parityFault (key : OpKey) : Sound (Ends s) (parityFault key s) := sound_error _

/-- A source of an x87 memory form makes at most a draw (R402). -/
def SourceSound (src : X87Source) : Prop := ∀ s, Sound (fun p => Worked s p.1) (src s)

theorem sourceSound_m32fp : SourceSound srcM32fp := fun s =>
  sound_bind (sound_memRead 32 s _) fun _ _ => sound_ok (worked_settle s _)

theorem sourceSound_m64fp : SourceSound srcM64fp := fun s =>
  sound_bind (sound_memRead 64 s _) fun _ _ => sound_ok (worked_refl s)

theorem sourceSound_m80fp : SourceSound srcM80fp := fun s =>
  sound_bind (sound_memRead 80 s _) fun _ _ => sound_ok (worked_settle s _)

theorem sourceSound_int (w : Nat) : SourceSound (srcInt w) := fun s =>
  sound_bind (sound_memRead w s _) fun _ _ => sound_ok (worked_refl s)

theorem ends_fldMem {src : X87Source} (h : SourceSound src) : Sound (Ends s) (fldMem src s) :=
  sound_bind (h s) fun _ hp => sound_ok (ends_complete (worked_trans hp (worked_fpush _ _)))

theorem ends_fstMem {w : Nat} (v : BitVec w) : Sound (Ends s) (fstMem v s) :=
  sound_bind (sound_memWrite s _ v) fun _ h => sound_ok (ends_complete h)

theorem ends_fstpMem {w : Nat} (v : BitVec w) : Sound (Ends s) (fstpMem v s) :=
  sound_bind (sound_memWrite s _ v) fun _ h => sound_ok (ends_complete (worked_trans h (worked_fpop _)))

theorem ends_loadControl : Sound (Ends s) (loadControl s) :=
  sound_bind (sound_memRead 16 s _) fun _ _ => sound_ok (ends_complete (worked_of rfl))

theorem ends_fpMem (op : FpOp) {src : X87Source} (h : SourceSound src) : Sound (Ends s) (fpMem op src s) :=
  sound_bind (h s) fun _ hp => sound_ok (ends_complete (worked_trans hp (worked_putResult _ _ _)))

theorem ends_fcomMem {src : X87Source} (h : SourceSound src) : Sound (Ends s) (fcomMem src s) :=
  sound_bind (h s) fun _ hp => sound_ok (ends_complete (worked_trans hp (worked_setCc _ _ _)))

theorem ends_fcompMem {src : X87Source} (h : SourceSound src) : Sound (Ends s) (fcompMem src s) :=
  sound_bind (h s) fun _ hp =>
    sound_ok (ends_complete (worked_trans (worked_trans hp (worked_setCc _ _ _)) (worked_fpop _)))

theorem worked_fcmovIf (c : Cond) : Worked s (fcmovIf c s) := by
  unfold fcmovIf
  split
  · exact worked_of rfl
  · exact worked_refl s

/-! ### String bodies -/

theorem worked_advance (k : Nat) (i : Reg) : Worked s (advance k s i) := worked_setGpr _ _ _

theorem sound_movsBody (w : Nat) : Sound (Worked s) (movsBody w s) :=
  sound_bind (sound_memRead w s _) fun v _ => sound_bind (sound_memWrite s _ v) fun _ h =>
    sound_ok (worked_trans (worked_trans h (worked_advance _ _ _)) (worked_advance _ _ _))

theorem sound_stosBody {w : Nat} (acc : Access w) : Sound (Worked s) (stosBody acc s) :=
  sound_bind (sound_memWrite s _ _) fun _ h => sound_ok (worked_trans h (worked_advance _ _ _))

theorem sound_lodsBody {w : Nat} {acc : Access w} (hacc : Faithful acc) : Sound (Worked s) (lodsBody acc s) :=
  sound_bind (sound_memRead w s _) fun _ _ =>
    sound_ok (worked_trans (worked_setReg hacc s _ _) (worked_advance _ _ _))

theorem sound_scasBody {w : Nat} (acc : Access w) : Sound (Worked s) (scasBody acc s) :=
  sound_bind (sound_memRead w s _) fun _ _ => sound_ok (worked_trans (worked_setAlu s _) (worked_advance _ _ _))

theorem sound_cmpsBody (w : Nat) : Sound (Worked s) (cmpsBody w s) :=
  sound_bind (sound_memRead w s _) fun _ _ => sound_bind (sound_memRead w s _) fun _ _ =>
    sound_ok (worked_trans (worked_trans (worked_setAlu s _) (worked_advance _ _ _)) (worked_advance _ _ _))

end

/-- Where the loop of R381 stops, the work of its iterations was done. -/
theorem worked_repLoop {body : State → Except Fault State} (hb : ∀ s, Sound (Worked s) (body s))
    (stop : State → Bool) (n : Nat) : ∀ s : State, Worked s (repLoop body stop n s).1 := by
  induction n with
  | zero => exact fun s => worked_refl s
  | succ k ih =>
    intro s
    unfold repLoop
    cases h : body s with
    | error f => exact worked_refl s
    | ok t =>
      have ht := worked_trans (hb s t h) (worked_setGpr t 1 (t.gpr 1 - 1))
      simp only
      split
      · exact ht
      · exact worked_trans ht (ih _)

/-! ### All instructions -/

/-- How `exec` can answer: the instruction ended, or HLT did; or its fault was delivered on the state it began in, or
on the state that the completed iterations of a repeated string instruction left; or it called for an interrupt. -/
inductive Executed (i : Instr) (s t : State) : Prop where
  | ended (h : Ends s t)
  | halt (hi : i = .hlt) (u : State) (h : Ends s u) (ht : t = { u with halted := true })
  | fault (f : Fault) (ht : t = s.deliver f)
  | repeated (hrep : s.rep ≠ .none)
      (hi : i ∈ [Instr.movsb, .movsd, .stosb, .stosd, .lodsb, .lodsd, .scasb, .scasd, .cmpsb, .cmpsd])
      (u : State) (h : Worked s u) (f : Fault) (ht : t = u.deliver f)
  | interrupt (hi : i = .intIb ∨ i = .int3) (n : Byte) (ht : t = s.interrupt n)

/-- `exec` answered a next state, and in one of the ways of `Executed`. -/
def Answers (i : Instr) (s : State) (o : Host.Outcome State Fault Refusal) : Prop :=
  ∃ t : State, o = .next t ∧ Executed i s t

theorem answers_finish {i : Instr} {s : State} {r : Except Fault State} (h : Sound (Ends s) r) :
    Answers i s (finish s r) := by
  cases r with
  | error f => exact ⟨_, rfl, .fault f rfl⟩
  | ok t => exact ⟨_, rfl, .ended (h t rfl)⟩

theorem answers_next {i : Instr} {s t : State} (h : Ends s t) : Answers i s (.next t) := ⟨t, rfl, .ended h⟩

theorem answers_string {i : Instr} {s : State} {body : State → Except Fault State} (stop : State → Bool)
    (hb : ∀ s, Sound (Worked s) (body s))
    (hi : i ∈ [Instr.movsb, .movsd, .stosb, .stosd, .lodsb, .lodsd, .scasb, .scasd, .cmpsb, .cmpsd]) :
    Answers i s (stringOp body stop s) := by
  unfold stringOp
  split
  · apply answers_finish
    cases h : body s with
    | error f => exact sound_error f
    | ok t => exact sound_ok (ends_complete (hb s t h))
  · rename_i hrep
    have hw := worked_repLoop hb stop (s.gpr 1).toNat s
    refine ⟨_, rfl, ?_⟩
    unfold finishRep
    split
    · exact .ended (ends_complete hw)
    · rename_i f _
      exact .repeated hrep hi _ hw f rfl

/-- Every instruction answers a next state, in one of the ways of `Executed`: no meaning stops the machine itself. -/
theorem exec_answers (i : Instr) (s : State) : Answers i s (exec i s) := by
  cases i with
  | addRm8R8 => exact answers_finish (ends_aluRm faithful8 _ _ _)
  | addRm32R32 => exact answers_finish (ends_aluRm faithful32 _ _ _)
  | addR8Rm8 => exact answers_finish (ends_aluRegRm faithful8 _ _)
  | addR32Rm32 => exact answers_finish (ends_aluRegRm faithful32 _ _)
  | addAlIb => exact answers_next (ends_aluReg faithful8 _ _ _ _)
  | addEaxId => exact answers_next (ends_aluReg faithful32 _ _ _ _)
  | orRm8R8 => exact answers_finish (ends_aluRm faithful8 _ _ _)
  | orRm32R32 => exact answers_finish (ends_aluRm faithful32 _ _ _)
  | orR8Rm8 => exact answers_finish (ends_aluRegRm faithful8 _ _)
  | orR32Rm32 => exact answers_finish (ends_aluRegRm faithful32 _ _)
  | orAlIb => exact answers_next (ends_aluReg faithful8 _ _ _ _)
  | orEaxId => exact answers_next (ends_aluReg faithful32 _ _ _ _)
  | adcRm8R8 => exact answers_finish (ends_aluRm faithful8 _ _ _)
  | adcRm32R32 => exact answers_finish (ends_aluRm faithful32 _ _ _)
  | adcR8Rm8 => exact answers_finish (ends_aluRegRm faithful8 _ _)
  | adcR32Rm32 => exact answers_finish (ends_aluRegRm faithful32 _ _)
  | adcAlIb => exact answers_next (ends_aluReg faithful8 _ _ _ _)
  | adcEaxId => exact answers_next (ends_aluReg faithful32 _ _ _ _)
  | sbbRm8R8 => exact answers_finish (ends_aluRm faithful8 _ _ _)
  | sbbRm32R32 => exact answers_finish (ends_aluRm faithful32 _ _ _)
  | sbbR8Rm8 => exact answers_finish (ends_aluRegRm faithful8 _ _)
  | sbbR32Rm32 => exact answers_finish (ends_aluRegRm faithful32 _ _)
  | sbbAlIb => exact answers_next (ends_aluReg faithful8 _ _ _ _)
  | sbbEaxId => exact answers_next (ends_aluReg faithful32 _ _ _ _)
  | andRm8R8 => exact answers_finish (ends_aluRm faithful8 _ _ _)
  | andRm32R32 => exact answers_finish (ends_aluRm faithful32 _ _ _)
  | andR8Rm8 => exact answers_finish (ends_aluRegRm faithful8 _ _)
  | andR32Rm32 => exact answers_finish (ends_aluRegRm faithful32 _ _)
  | andAlIb => exact answers_next (ends_aluReg faithful8 _ _ _ _)
  | andEaxId => exact answers_next (ends_aluReg faithful32 _ _ _ _)
  | subRm8R8 => exact answers_finish (ends_aluRm faithful8 _ _ _)
  | subRm32R32 => exact answers_finish (ends_aluRm faithful32 _ _ _)
  | subR8Rm8 => exact answers_finish (ends_aluRegRm faithful8 _ _)
  | subR32Rm32 => exact answers_finish (ends_aluRegRm faithful32 _ _)
  | subAlIb => exact answers_next (ends_aluReg faithful8 _ _ _ _)
  | subEaxId => exact answers_next (ends_aluReg faithful32 _ _ _ _)
  | xorRm8R8 => exact answers_finish (ends_aluRm faithful8 _ _ _)
  | xorRm32R32 => exact answers_finish (ends_aluRm faithful32 _ _ _)
  | xorR8Rm8 => exact answers_finish (ends_aluRegRm faithful8 _ _)
  | xorR32Rm32 => exact answers_finish (ends_aluRegRm faithful32 _ _)
  | xorAlIb => exact answers_next (ends_aluReg faithful8 _ _ _ _)
  | xorEaxId => exact answers_next (ends_aluReg faithful32 _ _ _ _)
  | cmpRm8R8 => exact answers_finish (ends_aluRm faithful8 _ _ _)
  | cmpRm32R32 => exact answers_finish (ends_aluRm faithful32 _ _ _)
  | cmpR8Rm8 => exact answers_finish (ends_aluRegRm faithful8 _ _)
  | cmpR32Rm32 => exact answers_finish (ends_aluRegRm faithful32 _ _)
  | cmpAlIb => exact answers_next (ends_aluReg faithful8 _ _ _ _)
  | cmpEaxId => exact answers_next (ends_aluReg faithful32 _ _ _ _)
  | incR32 => exact answers_next (ends_unaryReg _ _ _ worked_setAluKeepCf)
  | decR32 => exact answers_next (ends_unaryReg _ _ _ worked_setAluKeepCf)
  | pushR32 => exact answers_finish (ends_pushValue _ _)
  | popR32 => exact answers_finish (ends_popReg _)
  | pushad => exact answers_finish (ends_pushAll _)
  | popad => exact answers_finish (ends_popAll _)
  | pushId => exact answers_finish (ends_pushValue _ _)
  | imulR32Rm32Id => exact answers_finish (ends_imulReg _ _)
  | pushIb => exact answers_finish (ends_pushValue _ _)
  | imulR32Rm32Ib => exact answers_finish (ends_imulReg _ _)
  | joRel8 => exact answers_next (ends_jumpIf _ _)
  | jnoRel8 => exact answers_next (ends_jumpIf _ _)
  | jbRel8 => exact answers_next (ends_jumpIf _ _)
  | jaeRel8 => exact answers_next (ends_jumpIf _ _)
  | jeRel8 => exact answers_next (ends_jumpIf _ _)
  | jneRel8 => exact answers_next (ends_jumpIf _ _)
  | jbeRel8 => exact answers_next (ends_jumpIf _ _)
  | jaRel8 => exact answers_next (ends_jumpIf _ _)
  | jsRel8 => exact answers_next (ends_jumpIf _ _)
  | jnsRel8 => exact answers_next (ends_jumpIf _ _)
  | jpRel8 => exact answers_finish (ends_parityFault _ _)
  | jnpRel8 => exact answers_finish (ends_parityFault _ _)
  | jlRel8 => exact answers_next (ends_jumpIf _ _)
  | jgeRel8 => exact answers_next (ends_jumpIf _ _)
  | jleRel8 => exact answers_next (ends_jumpIf _ _)
  | jgRel8 => exact answers_next (ends_jumpIf _ _)
  | addRm8Ib => exact answers_finish (ends_aluRm faithful8 _ _ _)
  | addRm32Id => exact answers_finish (ends_aluRm faithful32 _ _ _)
  | addRm32Ib => exact answers_finish (ends_aluRm faithful32 _ _ _)
  | orRm8Ib => exact answers_finish (ends_aluRm faithful8 _ _ _)
  | orRm32Id => exact answers_finish (ends_aluRm faithful32 _ _ _)
  | orRm32Ib => exact answers_finish (ends_aluRm faithful32 _ _ _)
  | adcRm8Ib => exact answers_finish (ends_aluRm faithful8 _ _ _)
  | adcRm32Id => exact answers_finish (ends_aluRm faithful32 _ _ _)
  | adcRm32Ib => exact answers_finish (ends_aluRm faithful32 _ _ _)
  | sbbRm8Ib => exact answers_finish (ends_aluRm faithful8 _ _ _)
  | sbbRm32Id => exact answers_finish (ends_aluRm faithful32 _ _ _)
  | sbbRm32Ib => exact answers_finish (ends_aluRm faithful32 _ _ _)
  | andRm8Ib => exact answers_finish (ends_aluRm faithful8 _ _ _)
  | andRm32Id => exact answers_finish (ends_aluRm faithful32 _ _ _)
  | andRm32Ib => exact answers_finish (ends_aluRm faithful32 _ _ _)
  | subRm8Ib => exact answers_finish (ends_aluRm faithful8 _ _ _)
  | subRm32Id => exact answers_finish (ends_aluRm faithful32 _ _ _)
  | subRm32Ib => exact answers_finish (ends_aluRm faithful32 _ _ _)
  | xorRm8Ib => exact answers_finish (ends_aluRm faithful8 _ _ _)
  | xorRm32Id => exact answers_finish (ends_aluRm faithful32 _ _ _)
  | xorRm32Ib => exact answers_finish (ends_aluRm faithful32 _ _ _)
  | cmpRm8Ib => exact answers_finish (ends_aluRm faithful8 _ _ _)
  | cmpRm32Id => exact answers_finish (ends_aluRm faithful32 _ _ _)
  | cmpRm32Ib => exact answers_finish (ends_aluRm faithful32 _ _ _)
  | testRm8R8 => exact answers_finish (ends_testRm _ _ _)
  | testRm32R32 => exact answers_finish (ends_testRm _ _ _)
  | movRm8R8 => exact answers_finish (ends_storeRm faithful8 _ _)
  | movRm32R32 => exact answers_finish (ends_byOpsize (ends_storeRm faithful16 _ _) (ends_storeRm faithful32 _ _))
  | movR8Rm8 => exact answers_finish (ends_loadRm faithful8 _)
  | movR32Rm32 => exact answers_finish (ends_byOpsize (ends_loadRm faithful16 _) (ends_loadRm faithful32 _))
  | leaR32M => exact answers_next (ends_complete (worked_setGpr _ _ _))
  | popRm32 => exact answers_finish (ends_popRm _)
  | nop => exact answers_next (ends_complete (worked_refl s))
  | cwde => exact answers_next (ends_complete (worked_setGpr _ _ _))
  | cdq => exact answers_next (ends_complete (worked_setGpr _ _ _))
  | wait => exact answers_next (ends_complete (worked_refl s))
  | movAlMoffs8 => exact answers_finish (ends_loadMoffs faithful8 _)
  | movEaxMoffs32 => exact answers_finish (ends_byOpsize (ends_loadMoffs faithful16 _) (ends_loadMoffs faithful32 _))
  | movMoffs8Al => exact answers_finish (ends_storeMoffs _ _)
  | movMoffs32Eax => exact answers_finish (ends_byOpsize (ends_storeMoffs _ _) (ends_storeMoffs _ _))
  | movsb => exact answers_string _ (sound_movsBody · 8) (by decide)
  | movsd => exact answers_string _ (sound_movsBody · 32) (by decide)
  | cmpsb => exact answers_string _ (sound_cmpsBody · 8) (by decide)
  | cmpsd => exact answers_string _ (sound_cmpsBody · 32) (by decide)
  | testAlIb => exact answers_next (ends_testAcc _ _ _)
  | testEaxId => exact answers_next (ends_testAcc _ _ _)
  | stosb => exact answers_string _ (sound_stosBody · acc8) (by decide)
  | stosd => exact answers_string _ (sound_stosBody · acc32) (by decide)
  | lodsb => exact answers_string _ (sound_lodsBody · faithful8) (by decide)
  | lodsd => exact answers_string _ (sound_lodsBody · faithful32) (by decide)
  | scasb => exact answers_string _ (sound_scasBody · acc8) (by decide)
  | scasd => exact answers_string _ (sound_scasBody · acc32) (by decide)
  | movR8Ib => exact answers_next (ends_loadImm faithful8 _)
  | movR32Id => exact answers_finish (ends_byOpsize (sound_ok (ends_loadImm faithful16 _)) (sound_ok (ends_loadImm faithful32 _)))
  | rolRm8Ib => exact answers_finish (ends_shiftRm faithful8 _ _ _)
  | rorRm8Ib => exact answers_finish (ends_shiftRm faithful8 _ _ _)
  | rclRm8Ib => exact answers_finish (ends_shiftRm faithful8 _ _ _)
  | rcrRm8Ib => exact answers_finish (ends_shiftRm faithful8 _ _ _)
  | shlRm8Ib => exact answers_finish (ends_shiftRm faithful8 _ _ _)
  | shrRm8Ib => exact answers_finish (ends_shiftRm faithful8 _ _ _)
  | sarRm8Ib => exact answers_finish (ends_shiftRm faithful8 _ _ _)
  | rolRm32Ib => exact answers_finish (ends_shiftRm faithful32 _ _ _)
  | rorRm32Ib => exact answers_finish (ends_shiftRm faithful32 _ _ _)
  | rclRm32Ib => exact answers_finish (ends_shiftRm faithful32 _ _ _)
  | rcrRm32Ib => exact answers_finish (ends_shiftRm faithful32 _ _ _)
  | shlRm32Ib => exact answers_finish (ends_shiftRm faithful32 _ _ _)
  | shrRm32Ib => exact answers_finish (ends_shiftRm faithful32 _ _ _)
  | sarRm32Ib => exact answers_finish (ends_shiftRm faithful32 _ _ _)
  | rolRm8One => exact answers_finish (ends_shiftRm faithful8 _ _ _)
  | rorRm8One => exact answers_finish (ends_shiftRm faithful8 _ _ _)
  | rclRm8One => exact answers_finish (ends_shiftRm faithful8 _ _ _)
  | rcrRm8One => exact answers_finish (ends_shiftRm faithful8 _ _ _)
  | shlRm8One => exact answers_finish (ends_shiftRm faithful8 _ _ _)
  | shrRm8One => exact answers_finish (ends_shiftRm faithful8 _ _ _)
  | sarRm8One => exact answers_finish (ends_shiftRm faithful8 _ _ _)
  | rolRm32One => exact answers_finish (ends_shiftRm faithful32 _ _ _)
  | rorRm32One => exact answers_finish (ends_shiftRm faithful32 _ _ _)
  | rclRm32One => exact answers_finish (ends_shiftRm faithful32 _ _ _)
  | rcrRm32One => exact answers_finish (ends_shiftRm faithful32 _ _ _)
  | shlRm32One => exact answers_finish (ends_shiftRm faithful32 _ _ _)
  | shrRm32One => exact answers_finish (ends_shiftRm faithful32 _ _ _)
  | sarRm32One => exact answers_finish (ends_shiftRm faithful32 _ _ _)
  | rolRm8Cl => exact answers_finish (ends_shiftRm faithful8 _ _ _)
  | rorRm8Cl => exact answers_finish (ends_shiftRm faithful8 _ _ _)
  | rclRm8Cl => exact answers_finish (ends_shiftRm faithful8 _ _ _)
  | rcrRm8Cl => exact answers_finish (ends_shiftRm faithful8 _ _ _)
  | shlRm8Cl => exact answers_finish (ends_shiftRm faithful8 _ _ _)
  | shrRm8Cl => exact answers_finish (ends_shiftRm faithful8 _ _ _)
  | sarRm8Cl => exact answers_finish (ends_shiftRm faithful8 _ _ _)
  | rolRm32Cl => exact answers_finish (ends_shiftRm faithful32 _ _ _)
  | rorRm32Cl => exact answers_finish (ends_shiftRm faithful32 _ _ _)
  | rclRm32Cl => exact answers_finish (ends_shiftRm faithful32 _ _ _)
  | rcrRm32Cl => exact answers_finish (ends_shiftRm faithful32 _ _ _)
  | shlRm32Cl => exact answers_finish (ends_shiftRm faithful32 _ _ _)
  | shrRm32Cl => exact answers_finish (ends_shiftRm faithful32 _ _ _)
  | sarRm32Cl => exact answers_finish (ends_shiftRm faithful32 _ _ _)
  | retIw => exact answers_finish (ends_returnBy _ _)
  | ret => exact answers_finish (ends_returnBy _ _)
  | lesR32M => exact answers_finish (ends_loadFar _)
  | ldsR32M => exact answers_finish (ends_loadFar _)
  | movRm8Ib => exact answers_finish (ends_storeRm faithful8 _ _)
  | movRm32Id => exact answers_finish (ends_byOpsize (ends_storeRm faithful16 _ _) (ends_storeRm faithful32 _ _))
  | leave => exact answers_finish (ends_leaveFrame _)
  | int3 => exact ⟨_, rfl, .interrupt (.inr rfl) _ rfl⟩
  | intIb => exact ⟨_, rfl, .interrupt (.inl rfl) _ rfl⟩
  | callRel32 => exact answers_finish (ends_callTo _ _)
  | jmpRel32 => exact answers_next (ends_jump _ (worked_refl s))
  | jmpRel8 => exact answers_next (ends_jump _ (worked_refl s))
  | hlt => exact ⟨_, rfl, .halt rfl _ (ends_complete (worked_refl s)) rfl⟩
  | cmc => exact answers_next (ends_complete (worked_setCf _ _))
  | testRm8Ib => exact answers_finish (ends_testRm _ _ _)
  | notRm8 => exact answers_finish (ends_notRm faithful8 _)
  | negRm8 => exact answers_finish (ends_unaryRm faithful8 _ _ _ worked_setAlu)
  | mulRm8 => exact answers_finish (ends_mul8 _)
  | imulRm8 => exact answers_finish (ends_imul8 _)
  | divRm8 => exact answers_finish (ends_div8 _)
  | idivRm8 => exact answers_finish (ends_idiv8 _)
  | testRm32Id => exact answers_finish (ends_testRm _ _ _)
  | notRm32 => exact answers_finish (ends_notRm faithful32 _)
  | negRm32 => exact answers_finish (ends_unaryRm faithful32 _ _ _ worked_setAlu)
  | mulRm32 => exact answers_finish (ends_mul32 _)
  | imulRm32 => exact answers_finish (ends_imul32 _)
  | divRm32 => exact answers_finish (ends_div32 _)
  | idivRm32 => exact answers_finish (ends_idiv32 _)
  | clc => exact answers_next (ends_complete (worked_setCf _ _))
  | stc => exact answers_next (ends_complete (worked_setCf _ _))
  | cld => exact answers_next (ends_complete (worked_setDf _ _))
  | std => exact answers_next (ends_complete (worked_setDf _ _))
  | incRm8 => exact answers_finish (ends_unaryRm faithful8 _ _ _ worked_setAluKeepCf)
  | decRm8 => exact answers_finish (ends_unaryRm faithful8 _ _ _ worked_setAluKeepCf)
  | incRm32 => exact answers_finish (ends_unaryRm faithful32 _ _ _ worked_setAluKeepCf)
  | decRm32 => exact answers_finish (ends_unaryRm faithful32 _ _ _ worked_setAluKeepCf)
  | callRm32 => exact answers_finish (ends_callRm _)
  | jmpRm32 => exact answers_finish (ends_jumpRm _)
  | pushRm32 => exact answers_finish (ends_pushRm _)
  | nopRm32 => exact answers_next (ends_complete (worked_refl s))
  | cmovoR32Rm32 => exact answers_finish (ends_moveIf _ _)
  | cmovnoR32Rm32 => exact answers_finish (ends_moveIf _ _)
  | cmovbR32Rm32 => exact answers_finish (ends_moveIf _ _)
  | cmovaeR32Rm32 => exact answers_finish (ends_moveIf _ _)
  | cmoveR32Rm32 => exact answers_finish (ends_moveIf _ _)
  | cmovneR32Rm32 => exact answers_finish (ends_moveIf _ _)
  | cmovbeR32Rm32 => exact answers_finish (ends_moveIf _ _)
  | cmovaR32Rm32 => exact answers_finish (ends_moveIf _ _)
  | cmovsR32Rm32 => exact answers_finish (ends_moveIf _ _)
  | cmovnsR32Rm32 => exact answers_finish (ends_moveIf _ _)
  | cmovpR32Rm32 => exact answers_finish (ends_parityFault _ _)
  | cmovnpR32Rm32 => exact answers_finish (ends_parityFault _ _)
  | cmovlR32Rm32 => exact answers_finish (ends_moveIf _ _)
  | cmovgeR32Rm32 => exact answers_finish (ends_moveIf _ _)
  | cmovleR32Rm32 => exact answers_finish (ends_moveIf _ _)
  | cmovgR32Rm32 => exact answers_finish (ends_moveIf _ _)
  | joRel32 => exact answers_next (ends_jumpIf _ _)
  | jnoRel32 => exact answers_next (ends_jumpIf _ _)
  | jbRel32 => exact answers_next (ends_jumpIf _ _)
  | jaeRel32 => exact answers_next (ends_jumpIf _ _)
  | jeRel32 => exact answers_next (ends_jumpIf _ _)
  | jneRel32 => exact answers_next (ends_jumpIf _ _)
  | jbeRel32 => exact answers_next (ends_jumpIf _ _)
  | jaRel32 => exact answers_next (ends_jumpIf _ _)
  | jsRel32 => exact answers_next (ends_jumpIf _ _)
  | jnsRel32 => exact answers_next (ends_jumpIf _ _)
  | jpRel32 => exact answers_finish (ends_parityFault _ _)
  | jnpRel32 => exact answers_finish (ends_parityFault _ _)
  | jlRel32 => exact answers_next (ends_jumpIf _ _)
  | jgeRel32 => exact answers_next (ends_jumpIf _ _)
  | jleRel32 => exact answers_next (ends_jumpIf _ _)
  | jgRel32 => exact answers_next (ends_jumpIf _ _)
  | setoRm8 => exact answers_finish (ends_setIf _ _)
  | setnoRm8 => exact answers_finish (ends_setIf _ _)
  | setbRm8 => exact answers_finish (ends_setIf _ _)
  | setaeRm8 => exact answers_finish (ends_setIf _ _)
  | seteRm8 => exact answers_finish (ends_setIf _ _)
  | setneRm8 => exact answers_finish (ends_setIf _ _)
  | setbeRm8 => exact answers_finish (ends_setIf _ _)
  | setaRm8 => exact answers_finish (ends_setIf _ _)
  | setsRm8 => exact answers_finish (ends_setIf _ _)
  | setnsRm8 => exact answers_finish (ends_setIf _ _)
  | setpRm8 => exact answers_finish (ends_parityFault _ _)
  | setnpRm8 => exact answers_finish (ends_parityFault _ _)
  | setlRm8 => exact answers_finish (ends_setIf _ _)
  | setgeRm8 => exact answers_finish (ends_setIf _ _)
  | setleRm8 => exact answers_finish (ends_setIf _ _)
  | setgRm8 => exact answers_finish (ends_setIf _ _)
  | imulR32Rm32 => exact answers_finish (ends_imulReg _ _)
  | lssR32M => exact answers_finish (ends_loadFar _)
  | lfsR32M => exact answers_finish (ends_loadFar _)
  | lgsR32M => exact answers_finish (ends_loadFar _)
  | movzxR32Rm8 => exact answers_finish (ends_loadExtended _ _ _)
  | movzxR32Rm16 => exact answers_finish (ends_loadExtended _ _ _)
  | bsfR32Rm32 => exact answers_finish (ends_bitScan _ _)
  | bsrR32Rm32 => exact answers_finish (ends_bitScan _ _)
  | movsxR32Rm8 => exact answers_finish (ends_loadExtended _ _ _)
  | movsxR32Rm16 => exact answers_finish (ends_loadExtended _ _ _)
  | faddM32fp => exact answers_finish (ends_fpMem _ _ sourceSound_m32fp)
  | fmulM32fp => exact answers_finish (ends_fpMem _ _ sourceSound_m32fp)
  | fcomM32fp => exact answers_finish (ends_fcomMem _ sourceSound_m32fp)
  | fcompM32fp => exact answers_finish (ends_fcompMem _ sourceSound_m32fp)
  | fsubM32fp => exact answers_finish (ends_fpMem _ _ sourceSound_m32fp)
  | fsubrM32fp => exact answers_finish (ends_fpMem _ _ sourceSound_m32fp)
  | fdivM32fp => exact answers_finish (ends_fpMem _ _ sourceSound_m32fp)
  | fdivrM32fp => exact answers_finish (ends_fpMem _ _ sourceSound_m32fp)
  | fiaddM32int => exact answers_finish (ends_fpMem _ _ (sourceSound_int 32))
  | fimulM32int => exact answers_finish (ends_fpMem _ _ (sourceSound_int 32))
  | ficomM32int => exact answers_finish (ends_fcomMem _ (sourceSound_int 32))
  | ficompM32int => exact answers_finish (ends_fcompMem _ (sourceSound_int 32))
  | fisubM32int => exact answers_finish (ends_fpMem _ _ (sourceSound_int 32))
  | fisubrM32int => exact answers_finish (ends_fpMem _ _ (sourceSound_int 32))
  | fidivM32int => exact answers_finish (ends_fpMem _ _ (sourceSound_int 32))
  | fidivrM32int => exact answers_finish (ends_fpMem _ _ (sourceSound_int 32))
  | faddM64fp => exact answers_finish (ends_fpMem _ _ sourceSound_m64fp)
  | fmulM64fp => exact answers_finish (ends_fpMem _ _ sourceSound_m64fp)
  | fcomM64fp => exact answers_finish (ends_fcomMem _ sourceSound_m64fp)
  | fcompM64fp => exact answers_finish (ends_fcompMem _ sourceSound_m64fp)
  | fsubM64fp => exact answers_finish (ends_fpMem _ _ sourceSound_m64fp)
  | fsubrM64fp => exact answers_finish (ends_fpMem _ _ sourceSound_m64fp)
  | fdivM64fp => exact answers_finish (ends_fpMem _ _ sourceSound_m64fp)
  | fdivrM64fp => exact answers_finish (ends_fpMem _ _ sourceSound_m64fp)
  | fiaddM16int => exact answers_finish (ends_fpMem _ _ (sourceSound_int 16))
  | fimulM16int => exact answers_finish (ends_fpMem _ _ (sourceSound_int 16))
  | ficomM16int => exact answers_finish (ends_fcomMem _ (sourceSound_int 16))
  | ficompM16int => exact answers_finish (ends_fcompMem _ (sourceSound_int 16))
  | fisubM16int => exact answers_finish (ends_fpMem _ _ (sourceSound_int 16))
  | fisubrM16int => exact answers_finish (ends_fpMem _ _ (sourceSound_int 16))
  | fidivM16int => exact answers_finish (ends_fpMem _ _ (sourceSound_int 16))
  | fidivrM16int => exact answers_finish (ends_fpMem _ _ (sourceSound_int 16))
  | fldM32fp => exact answers_finish (ends_fldMem _ sourceSound_m32fp)
  | fstM32fp => exact answers_finish (ends_fstMem _ _)
  | fstpM32fp => exact answers_finish (ends_fstpMem _ _)
  | fldcwM16 => exact answers_finish (ends_loadControl _)
  | fnstcwM16 => exact answers_finish (ends_fstMem _ _)
  | fildM32int => exact answers_finish (ends_fldMem _ (sourceSound_int 32))
  | fistM32int => exact answers_finish (ends_fstMem _ _)
  | fistpM32int => exact answers_finish (ends_fstpMem _ _)
  | fldM80fp => exact answers_finish (ends_fldMem _ sourceSound_m80fp)
  | fstpM80fp => exact answers_finish (ends_fstpMem _ _)
  | fldM64fp => exact answers_finish (ends_fldMem _ sourceSound_m64fp)
  | fstM64fp => exact answers_finish (ends_fstMem _ _)
  | fstpM64fp => exact answers_finish (ends_fstpMem _ _)
  | fnstswM16 => exact answers_finish (ends_fstMem _ _)
  | fildM16int => exact answers_finish (ends_fldMem _ (sourceSound_int 16))
  | fistM16int => exact answers_finish (ends_fstMem _ _)
  | fistpM16int => exact answers_finish (ends_fstpMem _ _)
  | fildM64int => exact answers_finish (ends_fldMem _ (sourceSound_int 64))
  | fistpM64int => exact answers_finish (ends_fstpMem _ _)
  | faddSt0Sti => exact answers_next (ends_complete (worked_putResult _ _ _))
  | fmulSt0Sti => exact answers_next (ends_complete (worked_putResult _ _ _))
  | fcomSti => exact answers_next (ends_complete (worked_setCc _ _ _))
  | fcompSti => exact answers_next (ends_complete (worked_trans (worked_setCc _ _ _) (worked_fpop _)))
  | fsubSt0Sti => exact answers_next (ends_complete (worked_putResult _ _ _))
  | fsubrSt0Sti => exact answers_next (ends_complete (worked_putResult _ _ _))
  | fdivSt0Sti => exact answers_next (ends_complete (worked_putResult _ _ _))
  | fdivrSt0Sti => exact answers_next (ends_complete (worked_putResult _ _ _))
  | fldSti => exact answers_next (ends_complete (worked_fpush _ _))
  | fxchSti => exact answers_next (ends_complete (worked_of rfl))
  | fnop => exact answers_next (ends_complete (worked_refl s))
  | fchs => exact answers_next (ends_complete (worked_of rfl))
  | fabs => exact answers_next (ends_complete (worked_of rfl))
  | ftst => exact answers_next (ends_complete (worked_setCc _ _ _))
  | fld1 => exact answers_next (ends_complete (worked_fpush _ _))
  | fldl2t => exact answers_next (ends_complete (worked_fpush _ _))
  | fldl2e => exact answers_next (ends_complete (worked_fpush _ _))
  | fldpi => exact answers_next (ends_complete (worked_fpush _ _))
  | fldlg2 => exact answers_next (ends_complete (worked_fpush _ _))
  | fldln2 => exact answers_next (ends_complete (worked_fpush _ _))
  | fldz => exact answers_next (ends_complete (worked_fpush _ _))
  | fdecstp => exact answers_next (ends_complete (worked_setTop _ _))
  | fincstp => exact answers_next (ends_complete (worked_setTop _ _))
  | fsqrt => exact answers_next (ends_complete (worked_putResult _ _ _))
  | fcmovbSt0Sti => exact answers_next (ends_complete (worked_fcmovIf _ _))
  | fcmoveSt0Sti => exact answers_next (ends_complete (worked_fcmovIf _ _))
  | fcmovbeSt0Sti => exact answers_next (ends_complete (worked_fcmovIf _ _))
  | fcmovuSt0Sti => exact answers_finish (ends_parityFault _ _)
  | fucompp => exact answers_next (ends_complete (worked_trans (worked_trans (worked_setCc _ _ _) (worked_fpop _)) (worked_fpop _)))
  | fcmovnbSt0Sti => exact answers_next (ends_complete (worked_fcmovIf _ _))
  | fcmovneSt0Sti => exact answers_next (ends_complete (worked_fcmovIf _ _))
  | fcmovnbeSt0Sti => exact answers_next (ends_complete (worked_fcmovIf _ _))
  | fcmovnuSt0Sti => exact answers_finish (ends_parityFault _ _)
  | fnclex => exact answers_next (ends_complete (worked_clearExceptions s))
  | fninit => exact answers_next (ends_complete (worked_initFpu _))
  | fucomiSt0Sti => exact answers_next (ends_complete (worked_setEfl _ _ _))
  | fcomiSt0Sti => exact answers_next (ends_complete (worked_setEfl _ _ _))
  | faddStiSt0 => exact answers_next (ends_complete (worked_putResult _ _ _))
  | fmulStiSt0 => exact answers_next (ends_complete (worked_putResult _ _ _))
  | fsubrStiSt0 => exact answers_next (ends_complete (worked_putResult _ _ _))
  | fsubStiSt0 => exact answers_next (ends_complete (worked_putResult _ _ _))
  | fdivrStiSt0 => exact answers_next (ends_complete (worked_putResult _ _ _))
  | fdivStiSt0 => exact answers_next (ends_complete (worked_putResult _ _ _))
  | ffreeSti => exact answers_next (ends_complete (worked_of rfl))
  | fstSti => exact answers_next (ends_complete (worked_of rfl))
  | fstpSti => exact answers_next (ends_complete (worked_trans (worked_of rfl) (worked_fpop _)))
  | fucomSti => exact answers_next (ends_complete (worked_setCc _ _ _))
  | fucompSti => exact answers_next (ends_complete (worked_trans (worked_setCc _ _ _) (worked_fpop _)))
  | faddpStiSt0 => exact answers_next (ends_complete (worked_trans (worked_putResult _ _ _) (worked_fpop _)))
  | fmulpStiSt0 => exact answers_next (ends_complete (worked_trans (worked_putResult _ _ _) (worked_fpop _)))
  | fcompp => exact answers_next (ends_complete (worked_trans (worked_trans (worked_setCc _ _ _) (worked_fpop _)) (worked_fpop _)))
  | fsubrpStiSt0 => exact answers_next (ends_complete (worked_trans (worked_putResult _ _ _) (worked_fpop _)))
  | fsubpStiSt0 => exact answers_next (ends_complete (worked_trans (worked_putResult _ _ _) (worked_fpop _)))
  | fdivrpStiSt0 => exact answers_next (ends_complete (worked_trans (worked_putResult _ _ _) (worked_fpop _)))
  | fdivpStiSt0 => exact answers_next (ends_complete (worked_trans (worked_putResult _ _ _) (worked_fpop _)))
  | fnstswAx => exact answers_next (ends_complete (worked_setR16 _ _ _))
  | fucomipSt0Sti => exact answers_next (ends_complete (worked_trans (worked_setEfl _ _ _) (worked_fpop _)))
  | fcomipSt0Sti => exact answers_next (ends_complete (worked_trans (worked_setEfl _ _ _) (worked_fpop _)))

end Sys2Proof.Laws
end

