-- ==== Sys2Proof/Laws/Fetch.lean ====
section
/-! SUPPORT. Fetching (spec/30_encoding.md R100 to R107): bytes that stand in memory are the bytes fetched. -/

namespace Sys2Proof.Laws

open Sys2Proof.Machine

/-- The bytes of `l` stand in memory from `p` on. -/
def BytesAt (s : State) (p : Word) (l : List Byte) : Prop :=
  ∀ k : Nat, k < l.length → fetchByte s (p + BitVec.ofNat 32 k) = some (l.getD k 0)

theorem bytesAt_cons {s : State} {p : Word} {b : Byte} {l : List Byte} :
    BytesAt s p (b :: l) ↔ fetchByte s p = some b ∧ BytesAt s (p + 1) l := by
  have step : ∀ k : Nat, p + 1 + BitVec.ofNat 32 k = p + BitVec.ofNat 32 (k + 1) := by
    intro k
    rw [BitVec.add_assoc, Nat.add_comm k 1, BitVec.ofNat_add]
    rfl
  constructor
  · intro h
    refine ⟨by simpa using h 0 (by simp), fun k hk => ?_⟩
    rw [step]
    simpa using h (k + 1) (by simpa using hk)
  · rintro ⟨h0, h⟩ k hk
    cases k with
    | zero => simpa using h0
    | succ k =>
      rw [← step]
      simpa using h k (by simpa using hk)

/-- The fetched bytes begin with those that stand at `p`. -/
theorem fetchBytes_append {s : State} {l : List Byte} :
    ∀ {n : Nat} {p : Word}, BytesAt s p l → l.length ≤ n → ∃ rest, fetchBytes s n p = l ++ rest := by
  induction l with
  | nil => exact fun _ _ => ⟨_, rfl⟩
  | cons b l ih =>
    intro n p h hn
    rw [bytesAt_cons] at h
    cases n with
    | zero => simp at hn
    | succ n =>
      obtain ⟨rest, hr⟩ := ih h.2 (by simpa using hn)
      exact ⟨rest, by simp only [fetchBytes, h.1, hr, List.cons_append]⟩

/-- Prefix bytes, and then a byte that is none, make a prefix run. -/
theorem prefixRun_append {s : State} {ps : List Byte} (hps : ∀ b ∈ ps, isPrefixByte b = true) :
    ∀ {fuel : Nat} {p : Word} {b : Byte} {tail : List Byte}, BytesAt s p (ps ++ b :: tail) →
      isPrefixByte b = false → ps.length < fuel → prefixRun s fuel p = some ps.length := by
  induction ps with
  | nil =>
    intro fuel p b tail h hb hf
    rw [List.nil_append, bytesAt_cons] at h
    cases fuel with
    | zero => simp at hf
    | succ k => simp [prefixRun, h.1, hb]
  | cons a ps ih =>
    intro fuel p b tail h hb hf
    rw [List.cons_append, bytesAt_cons] at h
    cases fuel with
    | zero => simp at hf
    | succ k =>
      have := ih (fun x hx => hps x (List.mem_cons_of_mem _ hx)) h.2 hb (by simpa using hf)
      simp only [prefixRun, h.1, hps a (List.mem_cons_self ..), if_true, this, Option.map_some, List.length_cons]

/-- Fetching reads an instruction that stands at `eip` after at most three prefixes, `bytes` being all its bytes:
the address after it is the one after those bytes. -/
theorem fetch_of_bytes {s : State} {ps : List Byte} {b : Byte} {tail : List Byte} {c : Code}
    (h : BytesAt s s.eip (ps ++ b :: tail)) (hps : ∀ x ∈ ps, isPrefixByte x = true) (hb : isPrefixByte b = false)
    (hlen : ps.length ≤ 3) (htail : tail.length < maxBody)
    (hd : ∀ rest, decode (ps ++ b :: tail ++ rest) = .ok (c, rest)) :
    fetch s = .code c (s.eip + BitVec.ofNat 32 (ps ++ b :: tail).length) := by
  have hrun := prefixRun_append (fuel := 2 ^ 32) hps h hb (by omega)
  obtain ⟨rest, hr⟩ := fetchBytes_append (n := ps.length + maxBody) h (by
    simp only [List.length_append, List.length_cons]
    omega)
  simp only [fetch, hrun, hr, hd]
  congr 3
  simp only [List.length_append, List.length_cons]
  omega

/-! ### Lengths (R106) -/

theorem length_bytes4 (w : Word) : (bytes4 w).length = 4 := rfl
theorem length_bytes2 (w : Word) : (bytes2 w).length = 2 := rfl

theorem encodeRM_length (r : Reg) (rm : RM) : (encodeRM r rm).length ≤ 6 := by
  cases rm with
  | reg _ => simp [encodeRM]
  | mem m =>
    cases m with
    | abs d => simp [encodeRM, encodeMem, length_bytes4]
    | sibAbs a b d => simp [encodeRM, encodeMem, length_bytes4]
    | base b d => cases d <;> simp [encodeRM, encodeMem, encodeDisp, length_bytes4]
    | sib a b c d => cases d <;> simp [encodeRM, encodeMem, encodeDisp, length_bytes4]

/-- No body is longer than what a fetch reads after the prefixes. -/
theorem encodeBody_length (i : Instr) (osz : Bool) (o : Operands) : (encodeBody i osz o).length ≤ maxBody := by
  have h1 : (encodeKey i.row o.reg).length ≤ 2 := by
    unfold encodeKey
    split <;> simp
  have h2 : (encodeModRM i.row.shape o).length ≤ 6 := by
    unfold encodeModRM
    split <;> first | exact encodeRM_length _ _ | simp
  have h3 : (encodeImm i.row.imm osz o).length ≤ 4 := by
    unfold encodeImm
    repeat' split
    all_goals simp [length_bytes4, length_bytes2]
  simp only [encodeBody, List.length_append, maxBody]
  omega

theorem encodePrefixes_length (p : Prefixes) :
    (encodePrefixes p).length ≤ 3 ∧ ∀ x ∈ encodePrefixes p, isPrefixByte x = true := by
  obtain ⟨seg, osz, rep⟩ := p
  cases seg <;> cases osz <;> cases rep <;> decide

end Sys2Proof.Laws
end

