-- ==== Sys2Proof/Laws/FetchFault.lean ====
section
/-! SUPPORT. Decoding a longer list of bytes (spec/30_encoding.md R150), and the faults of fetching and decoding. -/

namespace Sys2Proof.Laws

open Sys2Proof.Machine

/-! ### More bytes -/

/-- `r'` is what a decoder answers on more bytes, `x`, where it answered `r` before: the same result with `x` left, or
the same error; a truncated result says nothing. -/
def Longer {α : Type} (x : List Byte) (r r' : Except DecodeError (α × List Byte)) : Prop :=
  match r with
  | .ok (a, rest) => r' = .ok (a, rest ++ x)
  | .error .truncated => True
  | .error e => r' = .error e

theorem take4_longer (x l : List Byte) : Longer x (take4 l) (take4 (l ++ x)) := by
  match l with
  | [] | [_] | [_, _] | [_, _, _] => trivial
  | a :: b :: c :: d :: rest => rfl

/-- A decoder that goes on with the value of another. -/
def mapValue {α β : Type} (f : α → β) : Except DecodeError (α × List Byte) → Except DecodeError (β × List Byte)
  | .ok (a, rest) => .ok (f a, rest)
  | .error e => .error e

theorem longer_map {α β : Type} {x : List Byte} {r r' : Except DecodeError (α × List Byte)}
    {t t' : Except DecodeError (β × List Byte)} (f : α → β) (h : Longer x r r') (ht : t = mapValue f r)
    (ht' : t' = mapValue f r') : Longer x t t' := by
  subst ht ht'
  cases r with
  | ok p => simp only [Longer] at h; rw [h]; rfl
  | error e => cases e <;> first | trivial | (simp only [Longer] at h; rw [h]; rfl)

theorem decodeDisp_longer (mod : BitVec 2) (x l : List Byte) :
    Longer x (decodeDisp mod l) (decodeDisp mod (l ++ x)) := by
  unfold decodeDisp
  split
  · rfl
  · cases l <;> trivial
  · exact longer_map Disp.disp32 (take4_longer x l)
      (by cases take4 l <;> rfl) (by cases take4 (l ++ x) <;> rfl)

theorem decodeSib_longer (mod : BitVec 2) (x l : List Byte) :
    Longer x (decodeSib mod l) (decodeSib mod (l ++ x)) := by
  cases l with
  | nil => trivial
  | cons b l =>
    simp only [decodeSib, List.cons_append]
    split
    · exact longer_map (MemOp.sibAbs (modField b) (regField b)) (take4_longer x l)
        (by cases take4 l <;> rfl) (by cases take4 (l ++ x) <;> rfl)
    · exact longer_map (MemOp.sib (modField b) (regField b) (rmField b)) (decodeDisp_longer mod x l)
        (by cases decodeDisp mod l <;> rfl) (by cases decodeDisp mod (l ++ x) <;> rfl)

theorem decodeMem_longer (m : Byte) (x l : List Byte) : Longer x (decodeMem m l) (decodeMem m (l ++ x)) := by
  unfold decodeMem
  split
  · exact decodeSib_longer _ x l
  · split
    · exact longer_map MemOp.abs (take4_longer x l)
        (by cases take4 l <;> rfl) (by cases take4 (l ++ x) <;> rfl)
    · exact longer_map (MemOp.base (rmField m)) (decodeDisp_longer _ x l)
        (by cases decodeDisp (modField m) l <;> rfl) (by cases decodeDisp (modField m) (l ++ x) <;> rfl)

theorem decodeRM_longer (m : Byte) (x l : List Byte) : Longer x (decodeRM m l) (decodeRM m (l ++ x)) := by
  unfold decodeRM
  split
  · rfl
  · exact longer_map RM.mem (decodeMem_longer m x l)
      (by cases decodeMem m l <;> rfl) (by cases decodeMem m (l ++ x) <;> rfl)

theorem decodeImm_longer (k : ImmKind) (osz : Bool) (o : Operands) (x l : List Byte) :
    Longer x (decodeImm k osz o l) (decodeImm k osz o (l ++ x)) := by
  have half : Longer x (decodeImm.takeHalf o l) (decodeImm.takeHalf o (l ++ x)) := by
    match l with
    | [] | [_] => trivial
    | a :: b :: rest => rfl
  have word : Longer x (decodeImm.takeWord o l) (decodeImm.takeWord o (l ++ x)) :=
    longer_map (fun w => ({ o with imm := w } : Operands)) (take4_longer x l)
      (by unfold decodeImm.takeWord; cases take4 l <;> rfl) (by unfold decodeImm.takeWord; cases take4 (l ++ x) <;> rfl)
  cases k
  case none => rfl
  case ib => cases l <;> trivial
  case ibSext => cases l <;> trivial
  case rel8 => cases l <;> trivial
  case iw => exact half
  case id => exact word
  case idOrIw =>
    unfold decodeImm
    cases osz
    · exact word
    · exact half
  case rel32 =>
    exact longer_map (fun w => ({ o with rel := w } : Operands)) (take4_longer x l)
      (by unfold decodeImm; cases take4 l <;> rfl) (by unfold decodeImm; cases take4 (l ++ x) <;> rfl)
  case moffs32 =>
    exact longer_map (fun w => ({ o with moffs := w } : Operands)) (take4_longer x l)
      (by unfold decodeImm; cases take4 l <;> rfl) (by unfold decodeImm; cases take4 (l ++ x) <;> rfl)

/-- The same for the decoders that answer a row and its operands. -/
def LongerRow (x : List Byte) (r r' : Except DecodeError (Instr × Operands × List Byte)) : Prop :=
  match r with
  | .ok (i, o, rest) => r' = .ok (i, o, rest ++ x)
  | .error .truncated => True
  | .error e => r' = .error e

theorem finishRow_longer (i : Instr) (osz : Bool) (reg : Reg) (rm : RM) (x l : List Byte) :
    LongerRow x (finishRow i osz reg rm l) (finishRow i osz reg rm (l ++ x)) := by
  have h := decodeImm_longer i.row.imm osz ⟨reg, rm, 0, 0, 0⟩ x l
  unfold finishRow
  cases hr : decodeImm i.row.imm osz ⟨reg, rm, 0, 0, 0⟩ l with
  | ok p => rw [hr] at h; simp only [Longer] at h; rw [h]; rfl
  | error e => rw [hr] at h; cases e <;> first | trivial | (simp only [Longer] at h; rw [h]; rfl)

theorem decodeWithRM_longer (i : Instr) (osz : Bool) (m : Byte) (x l : List Byte) :
    LongerRow x (decodeWithRM i osz m l) (decodeWithRM i osz m (l ++ x)) := by
  have h := decodeRM_longer m x l
  unfold decodeWithRM
  cases hr : decodeRM m l with
  | ok p =>
    rw [hr] at h
    simp only [Longer] at h
    rw [h]
    exact finishRow_longer i osz (regField m) p.1 x p.2
  | error e => rw [hr] at h; cases e <;> first | trivial | (simp only [Longer] at h; rw [h]; rfl)

theorem decodeEntry_longer (key : OpKey) (opcode : Byte) (e : Entry) (osz : Bool) (x l : List Byte) :
    LongerRow x (decodeEntry key opcode e osz l) (decodeEntry key opcode e osz (l ++ x)) := by
  cases e with
  | plain i => exact finishRow_longer i osz _ _ x l
  | plusR i => exact finishRow_longer i osz _ _ x l
  | modrm i =>
    cases l with
    | nil => trivial
    | cons m l => exact decodeWithRM_longer i osz m x l
  | mem i =>
    cases l with
    | nil => trivial
    | cons m l =>
      simp only [decodeEntry, List.cons_append]
      split
      · rfl
      · exact decodeWithRM_longer i osz m x l
  | group g =>
    cases l with
    | nil => trivial
    | cons m l =>
      simp only [decodeEntry, List.cons_append]
      split
      · exact decodeWithRM_longer _ osz m x l
      · rfl
  | x87 mems regs =>
    cases l with
    | nil => trivial
    | cons m l =>
      simp only [decodeEntry, List.cons_append]
      generalize (if modField m = 3 then regs (regField m) (rmField m) else mems (regField m)) = row
      cases row with
      | some i => exact decodeWithRM_longer i osz m x l
      | none => rfl

theorem decodeKey_longer (key : OpKey) (opcode : Byte) (e : Option Entry) (osz : Bool) (x l : List Byte) :
    LongerRow x (decodeKey key opcode e osz l) (decodeKey key opcode e osz (l ++ x)) := by
  cases e with
  | none => rfl
  | some e =>
    simp only [decodeKey]
    split
    · rfl
    · exact decodeEntry_longer key opcode e osz x l

theorem decodeOpcode_longer (osz : Bool) (x l : List Byte) :
    LongerRow x (decodeOpcode osz l) (decodeOpcode osz (l ++ x)) := by
  cases l with
  | nil => trivial
  | cons b l =>
    simp only [decodeOpcode, List.cons_append]
    split
    · cases l with
      | nil => trivial
      | cons b2 l => exact decodeKey_longer _ b2 _ osz x l
    · exact decodeKey_longer _ b _ osz x l

/-- The scan of more bytes leaves more bytes, unless it ran to the end. -/
theorem scan_append (x : List Byte) : ∀ (l : List Byte) (p : Prefixes), (scanPrefixes p l).2 ≠ [] →
    scanPrefixes p (l ++ x) = ((scanPrefixes p l).1, (scanPrefixes p l).2 ++ x) := by
  intro l
  induction l with
  | nil => intro p h; exact absurd rfl h
  | cons b l ih =>
    intro p h
    cases hb : prefixEffect b p with
    | some q =>
      rw [List.cons_append, scan_cons hb, scan_cons hb]
      rw [scan_cons hb] at h
      exact ih q h
    | none => simp only [scanPrefixes, hb, List.cons_append]

/-- More bytes change neither what was decoded nor a fault (R150). -/
theorem decode_longer (x l : List Byte) : Longer x (decode l) (decode (l ++ x)) := by
  by_cases hs : (scanPrefixes noPrefixes l).2 = []
  · have : decode l = .error .truncated := by simp only [decode, hs, decodeOpcode]
    rw [this]
    trivial
  · have h := decodeOpcode_longer (scanPrefixes noPrefixes l).1.opsizeOverride x (scanPrefixes noPrefixes l).2
    simp only [decode, scan_append x l noPrefixes hs]
    generalize decodeOpcode _ (scanPrefixes noPrefixes l).2 = r at h
    cases r with
    | ok p => obtain ⟨i, o, rest⟩ := p; simp only [LongerRow] at h; rw [h]; rfl
    | error e => cases e <;> first | trivial | (simp only [LongerRow] at h; rw [h]; rfl)

/-- A decoding that needs all of its bytes is truncated on any fewer of them. -/
theorem decode_cut {l x : List Byte} {c : Code} (h : decode (l ++ x) = .ok (c, [])) (hx : x ≠ []) :
    decode l = .error .truncated := by
  have k := decode_longer x l
  cases hr : decode l with
  | ok p =>
    rw [hr] at k
    simp only [Longer] at k
    rw [h] at k
    cases hp : p.2 with
    | nil => rw [hp] at k; simp at k; exact absurd k.2.symm (by simpa using hx)
    | cons a r => rw [hp] at k; simp at k
  | error e => cases e <;> first | rfl | (rw [hr] at k; simp only [Longer] at k; rw [h] at k; cases k)

/-! ### Prefixes -/

theorem prefixEffect_isSome {b : Byte} (h : isPrefixByte b = true) (p : Prefixes) :
    ∃ q, prefixEffect b p = some q ∧ q.opsizeOverride = (p.opsizeOverride || b == 0x66) := by
  have : b ∈ ([0x64, 0x65, 0x26, 0x2E, 0x36, 0x3E, 0x66, 0x67, 0xF0, 0xF2, 0xF3] : List Byte) := by
    revert h; revert b; decide +kernel
  simp only [List.mem_cons, List.not_mem_nil, or_false] at this
  rcases this with rfl | rfl | rfl | rfl | rfl | rfl | rfl | rfl | rfl | rfl | rfl <;>
    exact ⟨_, rfl, by cases p.opsizeOverride <;> rfl⟩

theorem isNone_of_not_prefix {b : Byte} (h : isPrefixByte b = false) : (prefixEffect b noPrefixes).isNone = true := by
  unfold isPrefixByte at h
  cases hb : prefixEffect b noPrefixes <;> simp_all

/-- After any prefixes the scan leaves the other bytes, and the override is on if 0x66 was among them (R101). -/
theorem scan_prefixes {ps : List Byte} : ∀ (p : Prefixes), (∀ x ∈ ps, isPrefixByte x = true) → ∃ q,
    q.opsizeOverride = (p.opsizeOverride || decide (0x66 ∈ ps)) ∧
      (∀ (b : Byte) (rest : List Byte), isPrefixByte b = false →
        scanPrefixes p (ps ++ b :: rest) = (q, b :: rest)) ∧ scanPrefixes p ps = (q, []) := by
  induction ps with
  | nil => intro p _; exact ⟨p, by simp, fun b rest hb => scan_stop (isNone_of_not_prefix hb) p rest, rfl⟩
  | cons a ps ih =>
    intro p h
    obtain ⟨q, hq, ho⟩ := prefixEffect_isSome (h a (List.mem_cons_self ..)) p
    obtain ⟨r, h1, h2, h3⟩ := ih q fun x hx => h x (List.mem_cons_of_mem _ hx)
    refine ⟨r, ?_, fun b rest hb => ?_, ?_⟩
    · rw [h1, ho, Bool.or_assoc]
      congr 1
      by_cases ha : a = 0x66
      · rw [ha]
        exact (decide_eq_true (List.mem_cons_self ..)).symm
      · rw [beq_false_of_ne ha, Bool.false_or]
        exact decide_eq_decide.2 (by rw [List.mem_cons, or_iff_right (Ne.symm ha)])
    · rw [List.cons_append, scan_cons hq, h2 b rest hb]
    · rw [scan_cons hq, h3]

/-- Decoding after any prefixes is decoding the opcode with the override they set. -/
theorem decode_prefixes {ps : List Byte} (h : ∀ x ∈ ps, isPrefixByte x = true) {b : Byte} {rest : List Byte}
    {e : DecodeError} (hb : isPrefixByte b = false)
    (hd : decodeOpcode (decide ((0x66 : Byte) ∈ ps)) (b :: rest) = .error e) :
    decode (ps ++ b :: rest) = .error e := by
  obtain ⟨q, h1, h2, -⟩ := scan_prefixes noPrefixes h
  simp only [decode, h2 b rest hb, h1, show noPrefixes.opsizeOverride = false from rfl, Bool.false_or, hd]

/-! ### Fetching -/

/-- A run of prefixes that ends is shorter than the address space: the byte behind it would be one of its own. -/
theorem prefixes_short {s : State} {p : Word} {ps : List Byte} (h : BytesAt s p ps)
    (hps : ∀ x ∈ ps, isPrefixByte x = true)
    (hend : ∀ b : Byte, fetchByte s (p + BitVec.ofNat 32 ps.length) = some b → isPrefixByte b = false) :
    ps.length < 2 ^ 32 := by
  by_contra hge
  have hk : ps.length % 2 ^ 32 < ps.length := lt_of_lt_of_le (Nat.mod_lt _ (by norm_num)) (by omega)
  have hf := h _ hk
  rw [show BitVec.ofNat 32 (ps.length % 2 ^ 32) = BitVec.ofNat 32 ps.length by
    apply BitVec.eq_of_toNat_eq; simp] at hf
  have hmem : ps.getD (ps.length % 2 ^ 32) 0 ∈ ps := by
    rw [List.getD_eq_getElem _ _ hk]
    exact List.getElem_mem _
  have := hend _ hf
  rw [hps _ hmem] at this
  cases this

theorem bytesAt_append {s : State} {l x : List Byte} : ∀ {p : Word}, BytesAt s p (l ++ x) ↔
    BytesAt s p l ∧ BytesAt s (p + BitVec.ofNat 32 l.length) x := by
  induction l with
  | nil => intro p; simp [BytesAt]
  | cons a l ih =>
    intro p
    rw [List.cons_append, bytesAt_cons, bytesAt_cons, ih, and_assoc, List.length_cons]
    rw [show p + 1 + BitVec.ofNat 32 l.length = p + BitVec.ofNat 32 (l.length + 1) by
      rw [BitVec.add_assoc, Nat.add_comm l.length 1, BitVec.ofNat_add]; rfl]

/-- A fault of decoding that is not the end of the bytes names no count of bytes. -/
theorem decodeFault_other {e : DecodeError} (s : State) (h : e ≠ .truncated) (m n : Nat) :
    decodeFault s m e = decodeFault s n e := by
  cases e <;> first | rfl | exact absurd rfl h

/-- Bytes at `eip` that no instruction begins with: the fault is theirs, whatever follows. -/
theorem fetch_error {s : State} {ps : List Byte} {b : Byte} {tail : List Byte} {e : DecodeError}
    (h : BytesAt s s.eip (ps ++ b :: tail)) (hps : ∀ x ∈ ps, isPrefixByte x = true) (hb : isPrefixByte b = false)
    (htail : tail.length < maxBody) (he : e ≠ .truncated)
    (hd : decodeOpcode (decide ((0x66 : Byte) ∈ ps)) (b :: tail) = .error e) :
    fetch s = .fault (decodeFault s 0 e) := by
  have hs := bytesAt_append.1 h
  have hlt := prefixes_short hs.1 hps fun c hc => by
    rw [(bytesAt_cons.1 hs.2).1] at hc
    cases hc
    exact hb
  have hrun := prefixRun_append (fuel := 2 ^ 32) hps h hb hlt
  obtain ⟨rest, hr⟩ := fetchBytes_append (n := ps.length + maxBody) h (by
    simp only [List.length_append, List.length_cons]
    omega)
  have hdec : decode (ps ++ b :: tail ++ rest) = .error e := by
    have k := decode_longer rest (ps ++ b :: tail)
    rw [decode_prefixes hps hb hd] at k
    cases e <;> first | exact absurd rfl he | exact k
  simp only [fetch, hrun, hr, hdec]
  exact congrArg _ (decodeFault_other s he _ _)

/-- Where the bytes end, the fetched bytes end. -/
theorem fetchBytes_end {s : State} {l : List Byte} : ∀ {n : Nat} {p : Word}, BytesAt s p l →
    fetchByte s (p + BitVec.ofNat 32 l.length) = none → l.length ≤ n → fetchBytes s n p = l := by
  induction l with
  | nil =>
    intro n p _ he _
    cases n with
    | zero => rfl
    | succ n => simp only [fetchBytes, show fetchByte s p = none by simpa using he]
  | cons b l ih =>
    intro n p h he hn
    rw [bytesAt_cons] at h
    cases n with
    | zero => simp at hn
    | succ n =>
      rw [List.length_cons, Nat.add_comm, BitVec.ofNat_add, ← BitVec.add_assoc] at he
      simp only [fetchBytes, h.1, ih h.2 he (by simpa using hn)]

/-- Where the bytes end, so does the prefix run. -/
theorem prefixRun_end {s : State} {l : List Byte} : ∀ {fuel : Nat} {p : Word}, BytesAt s p l →
    fetchByte s (p + BitVec.ofNat 32 l.length) = none → l.length < fuel →
      prefixRun s fuel p = some (l.takeWhile isPrefixByte).length := by
  induction l with
  | nil =>
    intro fuel p _ he hf
    cases fuel with
    | zero => simp at hf
    | succ k => simp [prefixRun, show fetchByte s p = none by simpa using he]
  | cons b l ih =>
    intro fuel p h he hf
    rw [bytesAt_cons] at h
    cases fuel with
    | zero => simp at hf
    | succ k =>
      rw [List.length_cons, Nat.add_comm, BitVec.ofNat_add, ← BitVec.add_assoc] at he
      have := ih h.2 he (by simpa using hf)
      simp only [prefixRun, h.1]
      cases hb : isPrefixByte b
      · rw [List.takeWhile_cons_of_neg (by simp [hb])]; rfl
      · rw [List.takeWhile_cons_of_pos hb]
        simp only [if_true, this, Option.map_some, List.length_cons]

/-- Bytes at `eip` that memory's end cuts off: the MemoryFault of the byte behind them (R100). -/
theorem fetch_truncated {s : State} {l : List Byte} (h : BytesAt s s.eip l)
    (he : fetchByte s (s.eip + BitVec.ofNat 32 l.length) = none) (hlt : l.length < 2 ^ 32)
    (hlen : l.length ≤ (l.takeWhile isPrefixByte).length + maxBody) (hd : decode l = .error .truncated) :
    fetch s = .fault (s.memoryFault (s.eip + BitVec.ofNat 32 l.length) 1) := by
  simp only [fetch, prefixRun_end h he hlt, fetchBytes_end h he hlen, hd]
  rfl

end Sys2Proof.Laws
end

