-- ==== Sys2Proof/Laws/Float.lean ====
section
/-! SUPPORT. What the binary64 patterns and the small operations on them are. -/

namespace Sys2Proof.Laws

open Sys2Proof.Machine

/-! ### Patterns -/

/-- A pattern is its sign bit and its 63 magnitude bits. -/
theorem join64_parts (v : F64) : join64 v.msb (v.extractLsb' 0 63).toNat = v := by
  apply BitVec.eq_of_getLsbD_eq
  intro k hk
  rw [join64, BitVec.ofNat_toNat, BitVec.setWidth_eq, BitVec.getLsbD_append, BitVec.getLsbD_extractLsb']
  by_cases h : k < 63
  · simp [h]
  · have e : k = 63 := by omega
    subst e
    rw [BitVec.msb_eq_getLsbD_last]
    simp

theorem msb_join64 (n : Bool) (m : Nat) : (join64 n m).msb = n := by
  rw [BitVec.msb_eq_getLsbD_last, join64, BitVec.getLsbD_append]
  simp

theorem magnitude_join64 (n : Bool) {m : Nat} (hm : m < 2 ^ 63) : ((join64 n m).extractLsb' 0 63).toNat = m := by
  have : (join64 n m).extractLsb' 0 63 = BitVec.ofNat 63 m := by
    apply BitVec.eq_of_getLsbD_eq
    intro k hk
    rw [join64, BitVec.getLsbD_extractLsb', BitVec.getLsbD_append]
    simp [hk]
  rw [this, BitVec.toNat_ofNat, Nat.mod_eq_of_lt hm]

/-- The exponent field is the high part of the magnitude bits (R25). -/
theorem exponent_eq (v : F64) : (v.extractLsb' 52 11).toNat = (v.extractLsb' 0 63).toNat / 2 ^ 52 := by
  rw [BitVec.extractLsb'_toNat, BitVec.extractLsb'_toNat, Nat.shiftRight_eq_div_pow, Nat.shiftRight_zero]
  omega

/-- The fraction field is the low part of the magnitude bits (R25). -/
theorem fraction_eq (v : F64) : (v.extractLsb' 0 52).toNat = (v.extractLsb' 0 63).toNat % 2 ^ 52 := by
  rw [BitVec.extractLsb'_toNat, BitVec.extractLsb'_toNat, Nat.shiftRight_zero]
  omega

theorem magnitude_lt (v : F64) : (v.extractLsb' 0 63).toNat < 2 ^ 63 := (v.extractLsb' 0 63).isLt

/-- A NaN by its magnitude bits (R15). -/
theorem isNan_iff (v : F64) : isNan v = true ↔ inf64 < (v.extractLsb' 0 63).toNat := by
  have h := magnitude_lt v
  have e := exponent_eq v
  have f := fraction_eq v
  rw [isNan, Bool.and_eq_true, beq_iff_eq, bne_iff_ne, ne_eq, ← BitVec.toNat_inj, ← BitVec.toNat_inj, e, f, inf64]
  simp only [BitVec.toNat_ofNat]
  omega

/-- The value of a NaN (R15). -/
theorem value64_nan {v : F64} (h : isNan v = true) : value64 v = .nan := by
  have h1 := (isNan_iff v).mp h
  have h2 := magnitude_lt v
  rw [inf64] at h1
  unfold value64 fieldsValue
  rw [exponent_eq, fraction_eq, if_pos (by omega), if_neg (by omega)]

/-- The value of a pattern that is no NaN is none (R15). -/
theorem value64_ne_nan {v : F64} (h : isNan v = false) : value64 v ≠ .nan := by
  have h1 : ¬ inf64 < (v.extractLsb' 0 63).toNat := fun hc => by rw [(isNan_iff v).mpr hc] at h; cases h
  have h2 := magnitude_lt v
  rw [inf64] at h1
  unfold value64 fieldsValue
  rw [exponent_eq, fraction_eq]
  split
  · rw [if_pos (by omega)]
    simp
  · split <;> simp

/-! ### The sign -/

theorem getLsbD_negate (v : F64) (k : Nat) :
    (negate v).getLsbD k = if k = 63 then !v.getLsbD 63 else v.getLsbD k := by
  have h : (0x8000000000000000#64) = BitVec.twoPow 64 63 := rfl
  rw [negate, BitVec.getLsbD_xor, h, BitVec.getLsbD_twoPow]
  by_cases hk : k = 63
  · subst hk
    cases v.getLsbD 63 <;> rfl
  · simp [hk, Ne.symm hk]

/-- The opposite has the same magnitude bits. -/
theorem magnitude_negate (v : F64) : (negate v).extractLsb' 0 63 = v.extractLsb' 0 63 := by
  apply BitVec.eq_of_getLsbD_eq
  intro k hk
  rw [BitVec.getLsbD_extractLsb', BitVec.getLsbD_extractLsb', getLsbD_negate, if_neg (by omega)]

theorem msb_negate (v : F64) : (negate v).msb = !v.msb := by
  rw [BitVec.msb_eq_getLsbD_last, BitVec.msb_eq_getLsbD_last, getLsbD_negate, if_pos rfl]

theorem isNan_negate (v : F64) : isNan (negate v) = isNan v := by
  rw [Bool.eq_iff_iff, isNan_iff, isNan_iff, magnitude_negate]

/-! ### The other formats -/

/-- A binary32 pattern is its sign bit and its 31 magnitude bits. -/
theorem parts32 (p : BitVec 32) : join32 p.msb (p.extractLsb' 0 31).toNat = p := by
  apply BitVec.eq_of_getLsbD_eq
  intro k hk
  rw [join32, BitVec.ofNat_toNat, BitVec.setWidth_eq, BitVec.getLsbD_append, BitVec.getLsbD_extractLsb']
  by_cases h : k < 31
  · simp [h]
  · have e : k = 31 := by omega
    subst e
    rw [BitVec.msb_eq_getLsbD_last]
    simp

/-- The value of an assembled extended pattern that is no infinity and no NaN (R404). -/
theorem value80_join (n : Bool) {e sig : Nat} (he : e < 0x7FFF) (hs : sig < 2 ^ 64) :
    value80 (join80 n e sig) = .fin n sig ((if e = 0 then 1 else e : Nat) - 16383 - 63) := by
  have h1 : ((join80 n e sig).extractLsb' 64 15).toNat = e := by
    have : (join80 n e sig).extractLsb' 64 15 = BitVec.ofNat 15 e := by
      apply BitVec.eq_of_getLsbD_eq
      intro k hk
      simp only [join80, BitVec.getLsbD_extractLsb', BitVec.getLsbD_append]
      rw [if_neg (by omega), if_pos (by omega)]
      simp [hk, show 64 + k - 64 = k by omega]
    rw [this, BitVec.toNat_ofNat]; omega
  have h2 : ((join80 n e sig).extractLsb' 0 64).toNat = sig := by
    have : (join80 n e sig).extractLsb' 0 64 = BitVec.ofNat 64 sig := by
      apply BitVec.eq_of_getLsbD_eq
      intro k hk
      simp only [join80, BitVec.getLsbD_extractLsb', BitVec.getLsbD_append]
      rw [if_pos (by omega)]
      simp [hk]
    rw [this, BitVec.toNat_ofNat]; omega
  have h3 : (join80 n e sig).msb = n := by
    rw [BitVec.msb_eq_getLsbD_last, join80, BitVec.getLsbD_append, BitVec.getLsbD_append]
    simp
  unfold value80
  rw [h1, h2, h3]
  simp only
  rw [if_neg (by omega)]

end Sys2Proof.Laws
end

