-- ==== Sys2Proof/Laws/Launch.lean ====
section
/-! SUPPORT. What loading, the host's writes and the launch sequence can do (spec/70_reset_and_hazards.md R552, R554):
each said once. -/

namespace Sys2Proof.Laws

open Sys2Proof.Machine Sys2Proof.Claims

/-- `load` puts its bytes at consecutive addresses and leaves every other byte alone (R86). -/
theorem read_copyBytes (bytes : List Byte) : ∀ (m : Memory) (a b : Nat),
    (copyBytes m a bytes).read b = if a ≤ b ∧ b < a + bytes.length then bytes.getD (b - a) 0 else m.read b := by
  induction bytes with
  | nil => intro m a b; rw [if_neg (by simp)]; rfl
  | cons v rest ih =>
    intro m a b
    rw [copyBytes, ih, read_write]
    simp only [List.length_cons]
    by_cases hb : b = a
    · subst hb
      rw [if_neg (by omega), if_pos rfl, if_pos (by omega), Nat.sub_self]
      rfl
    · rw [if_neg hb]
      by_cases hr : a ≤ b ∧ b < a + (rest.length + 1)
      · rw [if_pos (by omega), if_pos hr, show b - a = (b - (a + 1)) + 1 by omega]
        rfl
      · rw [if_neg (by omega), if_neg hr]

/-- What a host write may change: not the count, the parameters, the terminal state, the decode state or the model's
draws; and memory and TOP stay in order. -/
structure HostWrote (s t : State) : Prop where
  count : t.instrCount = s.instrCount
  config : t.config = s.config
  terminal : t.terminal = s.terminal
  draws : t.draws = s.draws
  idle : s.idle → t.idle
  memory : s.memOk → t.memOk
  top : s.topSynced → t.topSynced

theorem HostWrote.refl (s : State) : HostWrote s s := ⟨rfl, rfl, rfl, rfl, id, id, id⟩

theorem HostWrote.trans {s t u : State} (h : HostWrote s t) (k : HostWrote t u) : HostWrote s u :=
  ⟨k.count.trans h.count, k.config.trans h.config, k.terminal.trans h.terminal, k.draws.trans h.draws,
    k.idle ∘ h.idle, k.memory ∘ h.memory, k.top ∘ h.top⟩

/-- `load` inside memory: the state with those bytes, and nothing else changed. -/
theorem load_fits {s : State} {a : Word} {bytes : List Byte} (h : fits s a bytes.length = true) :
    s.load a bytes = .ok { s with mem := copyBytes s.mem a.toNat bytes } := by
  rw [State.load, inBounds_eq, if_pos h]

/-- `load` outside memory copies nothing (R86). -/
theorem load_not_fits {s : State} {a : Word} {bytes : List Byte} (h : fits s a bytes.length = false) :
    s.load a bytes = .error (.memoryFault a bytes.length s.config.memSize s.eip) := by
  rw [State.load, inBounds_eq, h]
  rfl

theorem load_wrote {s t : State} {a : Word} {bytes : List Byte} (h : s.load a bytes = .ok t) : HostWrote s t := by
  cases hf : fits s a bytes.length with
  | false => rw [load_not_fits hf] at h; cases h
  | true =>
    rw [load_fits hf] at h
    cases h
    exact ⟨rfl, rfl, rfl, rfl, id,
      fun hm => ⟨copyBytes_wf _ _ hm.1, copyBytes_within _ hm.2 (of_decide_eq_true hf)⟩, id⟩

theorem memWrite_wrote {w : Nat} {s t : State} {a : Word} {v : BitVec w} (h : s.memWrite a v = .ok t) :
    HostWrote s t := by
  unfold State.memWrite at h
  split at h
  · rename_i hf
    cases h
    exact ⟨rfl, rfl, rfl, rfl, id,
      fun hm => ⟨writeLE_wf _ _ _ hm.1, writeLE_within _ _ hm.2 (of_decide_eq_true hf)⟩, id⟩
  · cases h

/-- One host write (R554). -/
theorem hostWrite_wrote {s t : State} {w : HostWrite} (h : s.hostWrite w = .ok t) : HostWrote s t := by
  cases w with
  | bytes a v => exact load_wrote h
  | fpuTop v => cases h; exact ⟨rfl, rfl, rfl, rfl, id, id, fun _ => withTop_top _ _⟩
  | fpuStatus v => cases h; exact ⟨rfl, rfl, rfl, rfl, id, id, fun _ => withTop_top _ _⟩
  | _ => cases h; exact ⟨rfl, rfl, rfl, rfl, id, id, id⟩

theorem hostWrites_wrote (ws : List HostWrite) : ∀ {s t : State}, s.hostWrites ws = .ok t → HostWrote s t := by
  induction ws with
  | nil => intro s t h; cases h; exact .refl _
  | cons w rest ih =>
    intro s t h
    unfold State.hostWrites at h
    split at h
    · rename_i u hu; exact (hostWrite_wrote hu).trans (ih h)
    · cases h

theorem loadAll_wrote (l : List (Word × List Byte)) : ∀ {s t : State}, s.loadAll l = .ok t → HostWrote s t := by
  induction l with
  | nil => intro s t h; cases h; exact .refl _
  | cons p rest ih =>
    intro s t h
    unfold State.loadAll at h
    split at h
    · rename_i u hu; exact (load_wrote hu).trans (ih h)
    · cases h

theorem writeStubs_wrote (l : List (Word × Word)) : ∀ {s t : State}, s.writeStubs l = .ok t → HostWrote s t := by
  induction l with
  | nil => intro s t h; cases h; exact .refl _
  | cons p rest ih =>
    intro s t h
    unfold State.writeStubs at h
    split at h
    · rename_i u hu; exact (memWrite_wrote hu).trans (ih h)
    · cases h

/-- A launch leaves a well-formed state in which nothing has been counted (R552, R554). -/
theorem launch_wf {l : Launch} {t : State} (h : launch l = .ok t) :
    t.wf ∧ t.instrCount = 0 ∧ t.config = l.config ∧ t.terminal = none := by
  unfold launch at h
  cases ha : (State.resetWith l.config).loadAll l.payloads with
  | error f => rw [ha] at h; cases h
  | ok a =>
    rw [ha] at h
    cases hb : a.writeStubs l.stubs with
    | error f => simp only [hb, bind, Except.bind] at h; cases h
    | ok b =>
      simp only [hb, bind, Except.bind] at h
      have e : HostWrote b { b with eip := l.entry } := ⟨rfl, rfl, rfl, rfl, id, id, id⟩
      have w := (((loadAll_wrote _ ha).trans (writeStubs_wrote _ hb)).trans e).trans (hostWrites_wrote _ h)
      have top : (State.resetWith l.config).topSynced := by show (0#16).extractLsb' 11 3 = 0#3; decide
      exact ⟨⟨w.memory ⟨⟨.nil, nofun⟩, nofun⟩, w.top top, w.idle ⟨rfl, rfl, rfl, rfl, rfl⟩⟩, w.count, w.config,
        w.terminal⟩

end Sys2Proof.Laws
end

