-- ==== Sys2Proof/Laws/Move.lean ====
section
/-! SUPPORT. What the shared operations of data movement, multiplication, bit scans, shifts, the stack and control
transfer do, each said once. -/

namespace Sys2Proof.Laws

open Sys2Proof.Machine Sys2Proof.Claims

/-! ### Register writes -/

/-- An accessor's write changes the general registers alone. -/
theorem setReg_rest {w : Nat} {acc : Access w} (hacc : Faithful acc) (s : State) (r : Reg) (v : BitVec w) :
    acc.setReg s r v = { s with x := (acc.setReg s r v).x, mem := (acc.setReg s r v).mem } := by
  conv_lhs => rw [hacc.rest]
  conv_rhs => rw [hacc.rest]

/-- A register written, and the instruction ended (R201 to R205). -/
theorem setReg_complete {w : Nat} {acc : Access w} (hacc : Faithful acc) (s : State) (r : Reg) (v : BitVec w) :
    let t := (acc.setReg s r v).complete
    (RegSet w s t r v ∧ MemSame s t) ∧ t.flags = s.flags ∧ IntEnded s t s.next := by
  have h := setReg_rest hacc s r v
  obtain ⟨h1, h2⟩ := intEnded_plain h
  refine ⟨⟨RegSet.congr (hacc.set s r v) rfl, memSame_of ?_⟩, h1, h2⟩
  show (acc.setReg s r v).mem = _
  rw [hacc.rest]

/-! ### Data movement -/

/-- `Write(rm, w, v)` and complete (R201, R202). -/
theorem storeRm_fits {w : Nat} {acc : Access w} (hacc : Faithful acc) {s : State} (v : BitVec w)
    (h : rmFits w s = true) :
    ∃ t : State, storeRm acc s v = .ok t ∧ RmSet w s t v ∧ t.flags = s.flags ∧ IntEnded s t s.next := by
  obtain ⟨t, h1, h2, h3⟩ := writeRm_fits hacc v h
  obtain ⟨h4, h5⟩ := intEnded_plain h3
  refine ⟨t.complete, ?_, RmSet.congr h2 rfl rfl, h4, h5⟩
  simp only [storeRm, h1]
  rfl

/-- The same faults (R512). -/
theorem storeRm_not_fits {w : Nat} (acc : Access w) {s : State} {m : MemOp} (v : BitVec w)
    (hrm : s.ops.rm = .mem m) (h : fits s (linearAddr s m) (w / 8) = false) :
    storeRm acc s v = .error (.memoryFault (linearAddr s m) (w / 8) s.config.memSize s.eip) := by
  simp only [storeRm, writeRm_not_fits acc v hrm h]
  rfl

/-- `r(reg) <- Read(rm, w)` (R201). -/
theorem loadRm_fits {w : Nat} {acc : Access w} (hacc : Faithful acc) {s : State} (h : rmFits w s = true) :
    loadRm acc s = .ok (acc.setReg s s.ops.reg (rmVal w s)).complete := by
  simp only [loadRm, readRm_fits hacc h]
  rfl

/-- The same faults (R512). -/
theorem loadRm_not_fits {w : Nat} (acc : Access w) {s : State} {m : MemOp}
    (hrm : s.ops.rm = .mem m) (h : fits s (linearAddr s m) (w / 8) = false) :
    loadRm acc s = .error (.memoryFault (linearAddr s m) (w / 8) s.config.memSize s.eip) := by
  simp only [loadRm, readRm_not_fits acc hrm h]
  rfl

/-- `r(0) <- MemRead(LinearAddr(moffs), w / 8)` (R203). -/
theorem loadMoffs_fits {w : Nat} (acc : Access w) {s : State}
    (h : fits s (resolveSeg s s.ops.moffs) (w / 8) = true) :
    loadMoffs acc s =
      .ok (acc.setReg s 0 (BitVec.ofNat w (bytesAt s (resolveSeg s s.ops.moffs) (w / 8)))).complete := by
  simp only [loadMoffs, memRead_fits h]
  rfl

/-- `MemWrite(LinearAddr(moffs), w / 8, r(0))` (R203). -/
theorem storeMoffs_fits {w : Nat} {acc : Access w} (hacc : Faithful acc) {s : State}
    (h : fits s (resolveSeg s s.ops.moffs) (w / 8) = true) :
    ∃ t : State, storeMoffs acc s = .ok t ∧
      (RegsSame s t ∧ MemStored s t (resolveSeg s s.ops.moffs) (w / 8) (regVal w s 0).toNat) ∧
      t.flags = s.flags ∧ IntEnded s t s.next := by
  obtain ⟨t, h1, h2, h3⟩ := memWrite_fits (regVal w s 0) h
  have hx : t.x = s.x := by rw [h3]
  obtain ⟨h4, h5⟩ := intEnded_plain (s := s) (t := t) (by rw [hx]; exact h3)
  refine ⟨t.complete, ?_, ⟨regsSame_of hx, MemStored.congr h2 rfl⟩, h4, h5⟩
  simp only [storeMoffs, hacc.reg, h1]
  rfl

/-- `x[reg] <- ext(Read(rm, w))` (R204, R205). -/
theorem loadExtended_fits {w : Nat} {acc : Access w} (hacc : Faithful acc) (ext : BitVec w → Word) {s : State}
    (h : rmFits w s = true) :
    loadExtended acc ext s = .ok (s.setGpr s.ops.reg (ext (rmVal w s))).complete := by
  simp only [loadExtended, readRm_fits hacc h]
  rfl

/-- The far-pointer loads (R207). -/
theorem loadFar_fits {s : State} (h : fits s s.memAddr 4 = true) :
    loadFar s = .ok (s.setGpr s.ops.reg (BitVec.ofNat 32 (bytesAt s s.memAddr 4))).complete := by
  simp only [loadFar, memRead_fits (w := 32) h]
  rfl

/-- The address of a row that has no register form. -/
theorem memAddr_mem {s : State} {m : MemOp} (h : s.ops.rm = .mem m) : s.memAddr = linearAddr s m := by
  simp [State.memAddr, State.memOperand, h]

/-! ### Bit scans -/

/-- BSF and BSR on a zero source (R286, R287). -/
theorem bitScan_zero (find : Word → Nat) {s : State} (h : rmFits 32 s = true) (hv : rmVal 32 s = 0) :
    bitScan find s = .ok (s.setZf true).complete := by
  simp only [bitScan, readRm_fits faithful32 h]
  show (if rmVal 32 s = 0 then _ else _) = _
  rw [if_pos hv]
  rfl

/-- BSF and BSR on a non-zero source (R286, R287). -/
theorem bitScan_nonzero (find : Word → Nat) {s : State} (h : rmFits 32 s = true) (hv : rmVal 32 s ≠ 0) :
    bitScan find s =
      .ok ((s.setZf false).setGpr s.ops.reg (BitVec.ofNat 32 (find (rmVal 32 s)))).complete := by
  simp only [bitScan, readRm_fits faithful32 h]
  show (if rmVal 32 s = 0 then _ else _) = _
  rw [if_neg hv]
  rfl

/-- `lowestSet` finds the least set bit among the places from `32 - n` up. -/
theorem lowestSet_spec (v : Word) (n : Nat) (hn : n ≤ 32) (h : ∃ j, 32 - n ≤ j ∧ j < 32 ∧ v.getLsbD j = true) :
    32 - n ≤ lowestSet v n ∧ lowestSet v n < 32 ∧ v.getLsbD (lowestSet v n) = true ∧
      ∀ j, 32 - n ≤ j → j < lowestSet v n → v.getLsbD j = false := by
  induction n with
  | zero => obtain ⟨j, h1, h2, _⟩ := h; omega
  | succ k ih =>
    unfold lowestSet
    by_cases hb : v.getLsbD (31 - k) = true
    · rw [if_pos hb]
      exact ⟨by omega, by omega, hb, fun j h1 h2 => by omega⟩
    · rw [if_neg hb]
      obtain ⟨j, h1, h2, h3⟩ := h
      have hj : j ≠ 31 - k := by rintro rfl; exact hb h3
      obtain ⟨a, b, c, d⟩ := ih (by omega) ⟨j, by omega, h2, h3⟩
      refine ⟨by omega, b, c, fun i h1 h2 => ?_⟩
      by_cases hi : i = 31 - k
      · rw [hi]; simpa using hb
      · exact d i (by omega) h2

/-- `highestSet` finds the greatest set bit below `n`. -/
theorem highestSet_spec (v : Word) (n : Nat) (h : ∃ j, j < n ∧ v.getLsbD j = true) :
    highestSet v n < n ∧ v.getLsbD (highestSet v n) = true ∧
      ∀ j, highestSet v n < j → j < n → v.getLsbD j = false := by
  induction n with
  | zero => obtain ⟨j, h1, _⟩ := h; omega
  | succ k ih =>
    unfold highestSet
    by_cases hb : v.getLsbD k = true
    · rw [if_pos hb]
      exact ⟨by omega, hb, fun j h1 h2 => by omega⟩
    · rw [if_neg hb]
      obtain ⟨j, h1, h2⟩ := h
      have hj : j ≠ k := by rintro rfl; exact hb h2
      obtain ⟨a, b, c⟩ := ih ⟨j, by omega, h2⟩
      refine ⟨by omega, b, fun i h1 h2 => ?_⟩
      by_cases hi : i = k
      · rw [hi]; simpa using hb
      · exact c i h1 (by omega)

/-! ### Shifts and rotates -/

/-- A masked count of 0 (R290). -/
theorem shiftRm_zero {w : Nat} {acc : Access w} (hacc : Faithful acc) (op : ShiftOp) {raw : Byte} {s : State}
    (h : rmFits w s = true) (hc : maskedCount raw = 0) : shiftRm acc op raw s = .ok s.complete := by
  simp only [shiftRm, readRm_fits hacc h]
  show (if maskedCount raw = 0 then _ else _) = _
  rw [if_pos hc]
  rfl

/-- A non-zero masked count (R290 to R299). -/
theorem shiftRm_fits {w : Nat} {acc : Access w} (hacc : Faithful acc) (op : ShiftOp) {raw : Byte} {s : State}
    (h : rmFits w s = true) (hc : maskedCount raw ≠ 0) :
    let r := shiftResult op s.cf (rmVal w s) (maskedCount raw)
    ∃ t : State, shiftRm acc op raw s = .ok t ∧ RmSet w s t r.val ∧ IntEnded s t s.next ∧
      (op.writesZs = false → CarryOverflow s t r.cf r.of) ∧
      (op.writesZs = true → FlagsOf s t r.cf r.of r.val) := by
  intro r
  obtain ⟨u, h1, h2, h3⟩ := writeRm_fits hacc r.val h
  have hf : u.flags = s.flags := by rw [h3]
  have hrest : u.setShift op r = { u with flags := (u.setShift op r).flags } := by
    unfold State.setShift
    split <;> rfl
  refine ⟨(u.setShift op r).complete, ?_, ?_, intEnded_flags h3 hrest, fun hz => ?_, fun hz => ?_⟩
  · simp only [shiftRm, readRm_fits hacc h]
    show (if maskedCount raw = 0 then _ else _) = _
    rw [if_neg hc]
    show (writeRm acc s s.ops.rm r.val >>= _) = _
    rw [h1]
    rfl
  · rw [hrest]
    exact RmSet.congr h2 rfl rfl
  · have : u.setShift op r = (u.setCf r.cf).setOf r.of := by simp [State.setShift, hz]
    rw [this]
    exact carryOverflow_set r.cf r.of hf
  · have : u.setShift op r = u.setAlu r := by simp [State.setShift, State.setAlu, hz]
    rw [this]
    exact FlagsOf.congr (flagsOf_setAlu r hf) rfl

/-- A shift or rotate faults on reading its operand (R512). -/
theorem shiftRm_not_fits {w : Nat} (acc : Access w) (op : ShiftOp) (raw : Byte) {s : State} {m : MemOp}
    (hrm : s.ops.rm = .mem m) (h : fits s (linearAddr s m) (w / 8) = false) :
    shiftRm acc op raw s = .error (.memoryFault (linearAddr s m) (w / 8) s.config.memSize s.eip) := by
  simp only [shiftRm, readRm_not_fits acc hrm h]
  rfl

/-! ### Stack and transfers -/

/-- `Push32(v)`, then a transfer to `a` (R320 to R323, R346). -/
theorem push32_jump {s : State} (v a : Word) (h : fits s (s.gpr 4 - 4) 4 = true) :
    ∃ u t : State, push32 s v = .ok u ∧ u.next = s.next ∧ t = u.jump a ∧
      MemStored s t (s.gpr 4 - 4) 4 v.toNat ∧ t.gpr 4 = s.gpr 4 - 4 ∧ RegsSameBut [4] s t ∧ t.flags = s.flags ∧
      IntEnded s t a := by
  obtain ⟨u, h1, h2, h3, h4, h5⟩ := push32_fits v h
  have hf : u.flags = s.flags := by rw [h5]
  refine ⟨u, _, h1, by rw [h5], rfl, MemStored.congr h2 rfl, h3, h4, hf, intEnded_jump a ?_⟩
  rw [hf]
  exact h5

/-- PUSH of a value (R321, R322). -/
theorem pushValue_fits {s : State} (v : Word) (h : fits s (s.gpr 4 - 4) 4 = true) :
    ∃ t : State, pushValue v s = .ok t ∧ MemStored s t (s.gpr 4 - 4) 4 v.toNat ∧ t.gpr 4 = s.gpr 4 - 4 ∧
      RegsSameBut [4] s t ∧ t.flags = s.flags ∧ IntEnded s t s.next := by
  obtain ⟨u, t, h1, h2, h3, h4⟩ := push32_jump v s.next h
  refine ⟨t, ?_, h4⟩
  simp only [pushValue, h1, h3, ← h2]
  rfl

/-- PUSH r/m32 (R323). -/
theorem pushRm_fits {s : State} (h : rmFits 32 s = true) : pushRm s = pushValue (rmVal 32 s) s := by
  simp only [pushRm, readRm_fits faithful32 h]
  rfl

/-- CALL (R346, R347). -/
theorem callTo_fits {s : State} (a : Word) (h : fits s (s.gpr 4 - 4) 4 = true) :
    ∃ t : State, callTo a s = .ok t ∧ MemStored s t (s.gpr 4 - 4) 4 s.next.toNat ∧ t.gpr 4 = s.gpr 4 - 4 ∧
      RegsSameBut [4] s t ∧ t.flags = s.flags ∧ IntEnded s t a := by
  obtain ⟨u, t, h1, h2, h3, h4⟩ := push32_jump s.next a h
  refine ⟨t, ?_, h4⟩
  simp only [callTo, h1, h3]
  rfl

/-- CALL r/m32 (R347). -/
theorem callRm_fits {s : State} (h : rmFits 32 s = true) : callRm s = callTo (rmVal 32 s) s := by
  simp only [callRm, readRm_fits faithful32 h]
  rfl

/-- JMP r/m32 (R344). -/
theorem jumpRm_fits {s : State} (h : rmFits 32 s = true) : jumpRm s = .ok (s.jump (rmVal 32 s)) := by
  simp only [jumpRm, readRm_fits faithful32 h]
  rfl

/-- POP r32 (R324). -/
theorem popReg_fits {s : State} (h : fits s (s.gpr 4) 4 = true) :
    popReg s = .ok ((s.setGpr 4 (s.gpr 4 + 4)).setGpr s.ops.reg (BitVec.ofNat 32 (bytesAt s (s.gpr 4) 4))).complete := by
  simp only [popReg, pop32_fits h]
  rfl

/-- ESP set twice, and a transfer to `a`. -/
theorem setGpr_jump_spec (s : State) (v v' a : Word) :
    let t := ((s.setGpr 4 v).setGpr 4 v').jump a
    t.gpr 4 = v' ∧ RegsSameBut [4] s t ∧ MemSame s t ∧ t.flags = s.flags ∧ IntEnded s t a := by
  refine ⟨by simp, fun j hj => ?_, fun _ => rfl, rfl, intEnded_jump _ rfl⟩
  have hj4 : j ≠ 4 := by simpa using hj
  rw [jump_gpr, gpr_setGpr_other _ _ hj4, gpr_setGpr_other _ _ hj4]

/-- RET (R348, R349). -/
theorem returnBy_fits {s : State} (extra : Word) (h : fits s (s.gpr 4) 4 = true) :
    ∃ t : State, returnBy extra s = .ok t ∧ t.gpr 4 = s.gpr 4 + 4 + extra ∧ RegsSameBut [4] s t ∧
      MemSame s t ∧ t.flags = s.flags ∧ IntEnded s t (BitVec.ofNat 32 (bytesAt s (s.gpr 4) 4)) := by
  refine ⟨_, ?_, setGpr_jump_spec s (s.gpr 4 + 4) (s.gpr 4 + 4 + extra) _⟩
  simp only [returnBy, pop32_fits h]
  show Except.ok _ = _
  simp

/-- LEAVE (R328). -/
theorem leaveFrame_fits {s : State} (h : fits s (s.gpr 5) 4 = true) :
    leaveFrame s =
      .ok ((s.setGpr 4 (s.gpr 5 + 4)).setGpr 5 (BitVec.ofNat 32 (bytesAt s (s.gpr 5) 4))).complete := by
  simp only [leaveFrame, memRead_fits (w := 32) h]
  rfl

/-- PUSHAD (R326). -/
theorem pushAll_fits {s : State} (h : fits s (s.gpr 4 - 32) 32 = true) :
    ∃ t : State, pushAll s = .ok t ∧ MemStored s t (s.gpr 4 - 32) 32 (pushadImage s).toNat ∧
      t.gpr 4 = s.gpr 4 - 32 ∧ RegsSameBut [4] s t ∧ t.flags = s.flags ∧ IntEnded s t s.next := by
  obtain ⟨u, h1, h2, h3⟩ := memWrite_fits (w := 256) (pushadImage s) h
  have hx : u.x = s.x := by rw [h3]
  have hf : u.flags = s.flags := by rw [h3]
  refine ⟨(u.setGpr 4 (s.gpr 4 - 32)).complete, ?_, MemStored.congr h2 rfl, gpr_setGpr_self _ _ _,
    fun j hj => ?_, hf, intEnded_complete ?_⟩
  · simp only [pushAll, h1]
    rfl
  · show (u.setGpr 4 _).gpr j = _
    rw [gpr_setGpr_other _ _ (by simpa using hj), gpr_of_x hx]
  · conv_lhs => rw [h3]
    conv_rhs => rw [h3]
    rfl

/-- The registers POPAD leaves, `m` being the 32 bytes at ESP (R327). -/
theorem popAll_fits {s : State} (h : fits s (s.gpr 4) 32 = true) :
    ∃ t : State, popAll s = .ok t ∧
      (∀ k : Nat, k < 8 → k ≠ 4 → t.gpr (BitVec.ofNat 3 k) =
        (BitVec.ofNat 256 (bytesAt s (s.gpr 4) 32)).extractLsb' (32 * (7 - k)) 32) ∧
      t.gpr 4 = s.gpr 4 + 32 ∧ MemSame s t ∧ t.flags = s.flags ∧ IntEnded s t s.next := by
  have he := memRead_fits (w := 256) h
  generalize BitVec.ofNat 256 (bytesAt s (s.gpr 4) (256 / 8)) = m at he
  have hp : popAll s = .ok ((((((((s.setGpr 7 (m.extractLsb' 0 32)).setGpr 6 (m.extractLsb' 32 32)).setGpr 5
      (m.extractLsb' 64 32)).setGpr 3 (m.extractLsb' 128 32)).setGpr 2 (m.extractLsb' 160 32)).setGpr 1
      (m.extractLsb' 192 32)).setGpr 0 (m.extractLsb' 224 32)).setGpr 4 (s.gpr 4 + 32)).complete := by
    unfold popAll
    rw [he]
    rfl
  refine ⟨_, hp, fun k hk h4 => ?_, gpr_setGpr_self _ _ _, fun _ => rfl, rfl, intEnded_complete rfl⟩
  rw [complete_gpr]
  interval_cases k <;> first | exact absurd rfl h4 | simp [gpr_setGpr]

/-- CMOVcc (R351). -/
theorem moveIf_fits (c : Cond) {s : State} (h : rmFits 32 s = true) :
    moveIf c s = .ok (if c.holds s then s.setGpr s.ops.reg (rmVal 32 s) else s).complete := by
  simp only [moveIf, readRm_fits faithful32 h]
  rfl

end Sys2Proof.Laws
end

