-- ==== Sys2Proof/Laws/PerInstr.lean ====
section
/-! SUPPORT. Statements per instruction. Family `F`: the decoder reads back every well-formed encoding of the row, under
either setting of the operand-size prefix, whatever bytes follow (spec/30_encoding.md R104 to R106, R150, R151). -/

/-- Every well-formed operand record of the row decodes from its encoding. -/
def Sys2Proof.Laws.F.Statement (i : Sys2Proof.Instr) : Prop :=
  ∀ (osz : Bool) (o : Sys2Proof.Operands) (rest : List Sys2Proof.Byte), i.wfWith osz o = true →
    Sys2Proof.decodeOpcode osz (Sys2Proof.encodeBody i osz o ++ rest) = .ok (i, o, rest)

namespace Sys2Proof.Laws.F

/-- The row's description agrees with the opcode maps. -/
theorem of_rowReads {i : Instr} (h : rowReads i = true) : Statement i :=
  fun _ _ rest hwf => decodeOpcode_encodeBody rest h hwf

theorem addRm8R8 : Statement .addRm8R8 := of_rowReads (rowReads_all _)
theorem addRm32R32 : Statement .addRm32R32 := of_rowReads (rowReads_all _)
theorem addR8Rm8 : Statement .addR8Rm8 := of_rowReads (rowReads_all _)
theorem addR32Rm32 : Statement .addR32Rm32 := of_rowReads (rowReads_all _)
theorem addAlIb : Statement .addAlIb := of_rowReads (rowReads_all _)
theorem addEaxId : Statement .addEaxId := of_rowReads (rowReads_all _)
theorem orRm8R8 : Statement .orRm8R8 := of_rowReads (rowReads_all _)
theorem orRm32R32 : Statement .orRm32R32 := of_rowReads (rowReads_all _)
theorem orR8Rm8 : Statement .orR8Rm8 := of_rowReads (rowReads_all _)
theorem orR32Rm32 : Statement .orR32Rm32 := of_rowReads (rowReads_all _)
theorem orAlIb : Statement .orAlIb := of_rowReads (rowReads_all _)
theorem orEaxId : Statement .orEaxId := of_rowReads (rowReads_all _)
theorem adcRm8R8 : Statement .adcRm8R8 := of_rowReads (rowReads_all _)
theorem adcRm32R32 : Statement .adcRm32R32 := of_rowReads (rowReads_all _)
theorem adcR8Rm8 : Statement .adcR8Rm8 := of_rowReads (rowReads_all _)
theorem adcR32Rm32 : Statement .adcR32Rm32 := of_rowReads (rowReads_all _)
theorem adcAlIb : Statement .adcAlIb := of_rowReads (rowReads_all _)
theorem adcEaxId : Statement .adcEaxId := of_rowReads (rowReads_all _)
theorem sbbRm8R8 : Statement .sbbRm8R8 := of_rowReads (rowReads_all _)
theorem sbbRm32R32 : Statement .sbbRm32R32 := of_rowReads (rowReads_all _)
theorem sbbR8Rm8 : Statement .sbbR8Rm8 := of_rowReads (rowReads_all _)
theorem sbbR32Rm32 : Statement .sbbR32Rm32 := of_rowReads (rowReads_all _)
theorem sbbAlIb : Statement .sbbAlIb := of_rowReads (rowReads_all _)
theorem sbbEaxId : Statement .sbbEaxId := of_rowReads (rowReads_all _)
theorem andRm8R8 : Statement .andRm8R8 := of_rowReads (rowReads_all _)
theorem andRm32R32 : Statement .andRm32R32 := of_rowReads (rowReads_all _)
theorem andR8Rm8 : Statement .andR8Rm8 := of_rowReads (rowReads_all _)
theorem andR32Rm32 : Statement .andR32Rm32 := of_rowReads (rowReads_all _)
theorem andAlIb : Statement .andAlIb := of_rowReads (rowReads_all _)
theorem andEaxId : Statement .andEaxId := of_rowReads (rowReads_all _)
theorem subRm8R8 : Statement .subRm8R8 := of_rowReads (rowReads_all _)
theorem subRm32R32 : Statement .subRm32R32 := of_rowReads (rowReads_all _)
theorem subR8Rm8 : Statement .subR8Rm8 := of_rowReads (rowReads_all _)
theorem subR32Rm32 : Statement .subR32Rm32 := of_rowReads (rowReads_all _)
theorem subAlIb : Statement .subAlIb := of_rowReads (rowReads_all _)
theorem subEaxId : Statement .subEaxId := of_rowReads (rowReads_all _)
theorem xorRm8R8 : Statement .xorRm8R8 := of_rowReads (rowReads_all _)
theorem xorRm32R32 : Statement .xorRm32R32 := of_rowReads (rowReads_all _)
theorem xorR8Rm8 : Statement .xorR8Rm8 := of_rowReads (rowReads_all _)
theorem xorR32Rm32 : Statement .xorR32Rm32 := of_rowReads (rowReads_all _)
theorem xorAlIb : Statement .xorAlIb := of_rowReads (rowReads_all _)
theorem xorEaxId : Statement .xorEaxId := of_rowReads (rowReads_all _)
theorem cmpRm8R8 : Statement .cmpRm8R8 := of_rowReads (rowReads_all _)
theorem cmpRm32R32 : Statement .cmpRm32R32 := of_rowReads (rowReads_all _)
theorem cmpR8Rm8 : Statement .cmpR8Rm8 := of_rowReads (rowReads_all _)
theorem cmpR32Rm32 : Statement .cmpR32Rm32 := of_rowReads (rowReads_all _)
theorem cmpAlIb : Statement .cmpAlIb := of_rowReads (rowReads_all _)
theorem cmpEaxId : Statement .cmpEaxId := of_rowReads (rowReads_all _)
theorem incR32 : Statement .incR32 := of_rowReads (rowReads_all _)
theorem decR32 : Statement .decR32 := of_rowReads (rowReads_all _)
theorem pushR32 : Statement .pushR32 := of_rowReads (rowReads_all _)
theorem popR32 : Statement .popR32 := of_rowReads (rowReads_all _)
theorem pushad : Statement .pushad := of_rowReads (rowReads_all _)
theorem popad : Statement .popad := of_rowReads (rowReads_all _)
theorem pushId : Statement .pushId := of_rowReads (rowReads_all _)
theorem imulR32Rm32Id : Statement .imulR32Rm32Id := of_rowReads (rowReads_all _)
theorem pushIb : Statement .pushIb := of_rowReads (rowReads_all _)
theorem imulR32Rm32Ib : Statement .imulR32Rm32Ib := of_rowReads (rowReads_all _)
theorem joRel8 : Statement .joRel8 := of_rowReads (rowReads_all _)
theorem jnoRel8 : Statement .jnoRel8 := of_rowReads (rowReads_all _)
theorem jbRel8 : Statement .jbRel8 := of_rowReads (rowReads_all _)
theorem jaeRel8 : Statement .jaeRel8 := of_rowReads (rowReads_all _)
theorem jeRel8 : Statement .jeRel8 := of_rowReads (rowReads_all _)
theorem jneRel8 : Statement .jneRel8 := of_rowReads (rowReads_all _)
theorem jbeRel8 : Statement .jbeRel8 := of_rowReads (rowReads_all _)
theorem jaRel8 : Statement .jaRel8 := of_rowReads (rowReads_all _)
theorem jsRel8 : Statement .jsRel8 := of_rowReads (rowReads_all _)
theorem jnsRel8 : Statement .jnsRel8 := of_rowReads (rowReads_all _)
theorem jpRel8 : Statement .jpRel8 := of_rowReads (rowReads_all _)
theorem jnpRel8 : Statement .jnpRel8 := of_rowReads (rowReads_all _)
theorem jlRel8 : Statement .jlRel8 := of_rowReads (rowReads_all _)
theorem jgeRel8 : Statement .jgeRel8 := of_rowReads (rowReads_all _)
theorem jleRel8 : Statement .jleRel8 := of_rowReads (rowReads_all _)
theorem jgRel8 : Statement .jgRel8 := of_rowReads (rowReads_all _)
theorem addRm8Ib : Statement .addRm8Ib := of_rowReads (rowReads_all _)
theorem addRm32Id : Statement .addRm32Id := of_rowReads (rowReads_all _)
theorem addRm32Ib : Statement .addRm32Ib := of_rowReads (rowReads_all _)
theorem orRm8Ib : Statement .orRm8Ib := of_rowReads (rowReads_all _)
theorem orRm32Id : Statement .orRm32Id := of_rowReads (rowReads_all _)
theorem orRm32Ib : Statement .orRm32Ib := of_rowReads (rowReads_all _)
theorem adcRm8Ib : Statement .adcRm8Ib := of_rowReads (rowReads_all _)
theorem adcRm32Id : Statement .adcRm32Id := of_rowReads (rowReads_all _)
theorem adcRm32Ib : Statement .adcRm32Ib := of_rowReads (rowReads_all _)
theorem sbbRm8Ib : Statement .sbbRm8Ib := of_rowReads (rowReads_all _)
theorem sbbRm32Id : Statement .sbbRm32Id := of_rowReads (rowReads_all _)
theorem sbbRm32Ib : Statement .sbbRm32Ib := of_rowReads (rowReads_all _)
theorem andRm8Ib : Statement .andRm8Ib := of_rowReads (rowReads_all _)
theorem andRm32Id : Statement .andRm32Id := of_rowReads (rowReads_all _)
theorem andRm32Ib : Statement .andRm32Ib := of_rowReads (rowReads_all _)
theorem subRm8Ib : Statement .subRm8Ib := of_rowReads (rowReads_all _)
theorem subRm32Id : Statement .subRm32Id := of_rowReads (rowReads_all _)
theorem subRm32Ib : Statement .subRm32Ib := of_rowReads (rowReads_all _)
theorem xorRm8Ib : Statement .xorRm8Ib := of_rowReads (rowReads_all _)
theorem xorRm32Id : Statement .xorRm32Id := of_rowReads (rowReads_all _)
theorem xorRm32Ib : Statement .xorRm32Ib := of_rowReads (rowReads_all _)
theorem cmpRm8Ib : Statement .cmpRm8Ib := of_rowReads (rowReads_all _)
theorem cmpRm32Id : Statement .cmpRm32Id := of_rowReads (rowReads_all _)
theorem cmpRm32Ib : Statement .cmpRm32Ib := of_rowReads (rowReads_all _)
theorem testRm8R8 : Statement .testRm8R8 := of_rowReads (rowReads_all _)
theorem testRm32R32 : Statement .testRm32R32 := of_rowReads (rowReads_all _)
theorem movRm8R8 : Statement .movRm8R8 := of_rowReads (rowReads_all _)
theorem movRm32R32 : Statement .movRm32R32 := of_rowReads (rowReads_all _)
theorem movR8Rm8 : Statement .movR8Rm8 := of_rowReads (rowReads_all _)
theorem movR32Rm32 : Statement .movR32Rm32 := of_rowReads (rowReads_all _)
theorem leaR32M : Statement .leaR32M := of_rowReads (rowReads_all _)
theorem popRm32 : Statement .popRm32 := of_rowReads (rowReads_all _)
theorem nop : Statement .nop := of_rowReads (rowReads_all _)
theorem cwde : Statement .cwde := of_rowReads (rowReads_all _)
theorem cdq : Statement .cdq := of_rowReads (rowReads_all _)
theorem wait : Statement .wait := of_rowReads (rowReads_all _)
theorem movAlMoffs8 : Statement .movAlMoffs8 := of_rowReads (rowReads_all _)
theorem movEaxMoffs32 : Statement .movEaxMoffs32 := of_rowReads (rowReads_all _)
theorem movMoffs8Al : Statement .movMoffs8Al := of_rowReads (rowReads_all _)
theorem movMoffs32Eax : Statement .movMoffs32Eax := of_rowReads (rowReads_all _)
theorem movsb : Statement .movsb := of_rowReads (rowReads_all _)
theorem movsd : Statement .movsd := of_rowReads (rowReads_all _)
theorem cmpsb : Statement .cmpsb := of_rowReads (rowReads_all _)
theorem cmpsd : Statement .cmpsd := of_rowReads (rowReads_all _)
theorem testAlIb : Statement .testAlIb := of_rowReads (rowReads_all _)
theorem testEaxId : Statement .testEaxId := of_rowReads (rowReads_all _)
theorem stosb : Statement .stosb := of_rowReads (rowReads_all _)
theorem stosd : Statement .stosd := of_rowReads (rowReads_all _)
theorem lodsb : Statement .lodsb := of_rowReads (rowReads_all _)
theorem lodsd : Statement .lodsd := of_rowReads (rowReads_all _)
theorem scasb : Statement .scasb := of_rowReads (rowReads_all _)
theorem scasd : Statement .scasd := of_rowReads (rowReads_all _)
theorem movR8Ib : Statement .movR8Ib := of_rowReads (rowReads_all _)
theorem movR32Id : Statement .movR32Id := of_rowReads (rowReads_all _)
theorem rolRm8Ib : Statement .rolRm8Ib := of_rowReads (rowReads_all _)
theorem rorRm8Ib : Statement .rorRm8Ib := of_rowReads (rowReads_all _)
theorem rclRm8Ib : Statement .rclRm8Ib := of_rowReads (rowReads_all _)
theorem rcrRm8Ib : Statement .rcrRm8Ib := of_rowReads (rowReads_all _)
theorem shlRm8Ib : Statement .shlRm8Ib := of_rowReads (rowReads_all _)
theorem shrRm8Ib : Statement .shrRm8Ib := of_rowReads (rowReads_all _)
theorem sarRm8Ib : Statement .sarRm8Ib := of_rowReads (rowReads_all _)
theorem rolRm32Ib : Statement .rolRm32Ib := of_rowReads (rowReads_all _)
theorem rorRm32Ib : Statement .rorRm32Ib := of_rowReads (rowReads_all _)
theorem rclRm32Ib : Statement .rclRm32Ib := of_rowReads (rowReads_all _)
theorem rcrRm32Ib : Statement .rcrRm32Ib := of_rowReads (rowReads_all _)
theorem shlRm32Ib : Statement .shlRm32Ib := of_rowReads (rowReads_all _)
theorem shrRm32Ib : Statement .shrRm32Ib := of_rowReads (rowReads_all _)
theorem sarRm32Ib : Statement .sarRm32Ib := of_rowReads (rowReads_all _)
theorem rolRm8One : Statement .rolRm8One := of_rowReads (rowReads_all _)
theorem rorRm8One : Statement .rorRm8One := of_rowReads (rowReads_all _)
theorem rclRm8One : Statement .rclRm8One := of_rowReads (rowReads_all _)
theorem rcrRm8One : Statement .rcrRm8One := of_rowReads (rowReads_all _)
theorem shlRm8One : Statement .shlRm8One := of_rowReads (rowReads_all _)
theorem shrRm8One : Statement .shrRm8One := of_rowReads (rowReads_all _)
theorem sarRm8One : Statement .sarRm8One := of_rowReads (rowReads_all _)
theorem rolRm32One : Statement .rolRm32One := of_rowReads (rowReads_all _)
theorem rorRm32One : Statement .rorRm32One := of_rowReads (rowReads_all _)
theorem rclRm32One : Statement .rclRm32One := of_rowReads (rowReads_all _)
theorem rcrRm32One : Statement .rcrRm32One := of_rowReads (rowReads_all _)
theorem shlRm32One : Statement .shlRm32One := of_rowReads (rowReads_all _)
theorem shrRm32One : Statement .shrRm32One := of_rowReads (rowReads_all _)
theorem sarRm32One : Statement .sarRm32One := of_rowReads (rowReads_all _)
theorem rolRm8Cl : Statement .rolRm8Cl := of_rowReads (rowReads_all _)
theorem rorRm8Cl : Statement .rorRm8Cl := of_rowReads (rowReads_all _)
theorem rclRm8Cl : Statement .rclRm8Cl := of_rowReads (rowReads_all _)
theorem rcrRm8Cl : Statement .rcrRm8Cl := of_rowReads (rowReads_all _)
theorem shlRm8Cl : Statement .shlRm8Cl := of_rowReads (rowReads_all _)
theorem shrRm8Cl : Statement .shrRm8Cl := of_rowReads (rowReads_all _)
theorem sarRm8Cl : Statement .sarRm8Cl := of_rowReads (rowReads_all _)
theorem rolRm32Cl : Statement .rolRm32Cl := of_rowReads (rowReads_all _)
theorem rorRm32Cl : Statement .rorRm32Cl := of_rowReads (rowReads_all _)
theorem rclRm32Cl : Statement .rclRm32Cl := of_rowReads (rowReads_all _)
theorem rcrRm32Cl : Statement .rcrRm32Cl := of_rowReads (rowReads_all _)
theorem shlRm32Cl : Statement .shlRm32Cl := of_rowReads (rowReads_all _)
theorem shrRm32Cl : Statement .shrRm32Cl := of_rowReads (rowReads_all _)
theorem sarRm32Cl : Statement .sarRm32Cl := of_rowReads (rowReads_all _)
theorem retIw : Statement .retIw := of_rowReads (rowReads_all _)
theorem ret : Statement .ret := of_rowReads (rowReads_all _)
theorem lesR32M : Statement .lesR32M := of_rowReads (rowReads_all _)
theorem ldsR32M : Statement .ldsR32M := of_rowReads (rowReads_all _)
theorem movRm8Ib : Statement .movRm8Ib := of_rowReads (rowReads_all _)
theorem movRm32Id : Statement .movRm32Id := of_rowReads (rowReads_all _)
theorem leave : Statement .leave := of_rowReads (rowReads_all _)
theorem int3 : Statement .int3 := of_rowReads (rowReads_all _)
theorem intIb : Statement .intIb := of_rowReads (rowReads_all _)
theorem callRel32 : Statement .callRel32 := of_rowReads (rowReads_all _)
theorem jmpRel32 : Statement .jmpRel32 := of_rowReads (rowReads_all _)
theorem jmpRel8 : Statement .jmpRel8 := of_rowReads (rowReads_all _)
theorem hlt : Statement .hlt := of_rowReads (rowReads_all _)
theorem cmc : Statement .cmc := of_rowReads (rowReads_all _)
theorem testRm8Ib : Statement .testRm8Ib := of_rowReads (rowReads_all _)
theorem notRm8 : Statement .notRm8 := of_rowReads (rowReads_all _)
theorem negRm8 : Statement .negRm8 := of_rowReads (rowReads_all _)
theorem mulRm8 : Statement .mulRm8 := of_rowReads (rowReads_all _)
theorem imulRm8 : Statement .imulRm8 := of_rowReads (rowReads_all _)
theorem divRm8 : Statement .divRm8 := of_rowReads (rowReads_all _)
theorem idivRm8 : Statement .idivRm8 := of_rowReads (rowReads_all _)
theorem testRm32Id : Statement .testRm32Id := of_rowReads (rowReads_all _)
theorem notRm32 : Statement .notRm32 := of_rowReads (rowReads_all _)
theorem negRm32 : Statement .negRm32 := of_rowReads (rowReads_all _)
theorem mulRm32 : Statement .mulRm32 := of_rowReads (rowReads_all _)
theorem imulRm32 : Statement .imulRm32 := of_rowReads (rowReads_all _)
theorem divRm32 : Statement .divRm32 := of_rowReads (rowReads_all _)
theorem idivRm32 : Statement .idivRm32 := of_rowReads (rowReads_all _)
theorem clc : Statement .clc := of_rowReads (rowReads_all _)
theorem stc : Statement .stc := of_rowReads (rowReads_all _)
theorem cld : Statement .cld := of_rowReads (rowReads_all _)
theorem std : Statement .std := of_rowReads (rowReads_all _)
theorem incRm8 : Statement .incRm8 := of_rowReads (rowReads_all _)
theorem decRm8 : Statement .decRm8 := of_rowReads (rowReads_all _)
theorem incRm32 : Statement .incRm32 := of_rowReads (rowReads_all _)
theorem decRm32 : Statement .decRm32 := of_rowReads (rowReads_all _)
theorem callRm32 : Statement .callRm32 := of_rowReads (rowReads_all _)
theorem jmpRm32 : Statement .jmpRm32 := of_rowReads (rowReads_all _)
theorem pushRm32 : Statement .pushRm32 := of_rowReads (rowReads_all _)
theorem nopRm32 : Statement .nopRm32 := of_rowReads (rowReads_all _)
theorem cmovoR32Rm32 : Statement .cmovoR32Rm32 := of_rowReads (rowReads_all _)
theorem cmovnoR32Rm32 : Statement .cmovnoR32Rm32 := of_rowReads (rowReads_all _)
theorem cmovbR32Rm32 : Statement .cmovbR32Rm32 := of_rowReads (rowReads_all _)
theorem cmovaeR32Rm32 : Statement .cmovaeR32Rm32 := of_rowReads (rowReads_all _)
theorem cmoveR32Rm32 : Statement .cmoveR32Rm32 := of_rowReads (rowReads_all _)
theorem cmovneR32Rm32 : Statement .cmovneR32Rm32 := of_rowReads (rowReads_all _)
theorem cmovbeR32Rm32 : Statement .cmovbeR32Rm32 := of_rowReads (rowReads_all _)
theorem cmovaR32Rm32 : Statement .cmovaR32Rm32 := of_rowReads (rowReads_all _)
theorem cmovsR32Rm32 : Statement .cmovsR32Rm32 := of_rowReads (rowReads_all _)
theorem cmovnsR32Rm32 : Statement .cmovnsR32Rm32 := of_rowReads (rowReads_all _)
theorem cmovpR32Rm32 : Statement .cmovpR32Rm32 := of_rowReads (rowReads_all _)
theorem cmovnpR32Rm32 : Statement .cmovnpR32Rm32 := of_rowReads (rowReads_all _)
theorem cmovlR32Rm32 : Statement .cmovlR32Rm32 := of_rowReads (rowReads_all _)
theorem cmovgeR32Rm32 : Statement .cmovgeR32Rm32 := of_rowReads (rowReads_all _)
theorem cmovleR32Rm32 : Statement .cmovleR32Rm32 := of_rowReads (rowReads_all _)
theorem cmovgR32Rm32 : Statement .cmovgR32Rm32 := of_rowReads (rowReads_all _)
theorem joRel32 : Statement .joRel32 := of_rowReads (rowReads_all _)
theorem jnoRel32 : Statement .jnoRel32 := of_rowReads (rowReads_all _)
theorem jbRel32 : Statement .jbRel32 := of_rowReads (rowReads_all _)
theorem jaeRel32 : Statement .jaeRel32 := of_rowReads (rowReads_all _)
theorem jeRel32 : Statement .jeRel32 := of_rowReads (rowReads_all _)
theorem jneRel32 : Statement .jneRel32 := of_rowReads (rowReads_all _)
theorem jbeRel32 : Statement .jbeRel32 := of_rowReads (rowReads_all _)
theorem jaRel32 : Statement .jaRel32 := of_rowReads (rowReads_all _)
theorem jsRel32 : Statement .jsRel32 := of_rowReads (rowReads_all _)
theorem jnsRel32 : Statement .jnsRel32 := of_rowReads (rowReads_all _)
theorem jpRel32 : Statement .jpRel32 := of_rowReads (rowReads_all _)
theorem jnpRel32 : Statement .jnpRel32 := of_rowReads (rowReads_all _)
theorem jlRel32 : Statement .jlRel32 := of_rowReads (rowReads_all _)
theorem jgeRel32 : Statement .jgeRel32 := of_rowReads (rowReads_all _)
theorem jleRel32 : Statement .jleRel32 := of_rowReads (rowReads_all _)
theorem jgRel32 : Statement .jgRel32 := of_rowReads (rowReads_all _)
theorem setoRm8 : Statement .setoRm8 := of_rowReads (rowReads_all _)
theorem setnoRm8 : Statement .setnoRm8 := of_rowReads (rowReads_all _)
theorem setbRm8 : Statement .setbRm8 := of_rowReads (rowReads_all _)
theorem setaeRm8 : Statement .setaeRm8 := of_rowReads (rowReads_all _)
theorem seteRm8 : Statement .seteRm8 := of_rowReads (rowReads_all _)
theorem setneRm8 : Statement .setneRm8 := of_rowReads (rowReads_all _)
theorem setbeRm8 : Statement .setbeRm8 := of_rowReads (rowReads_all _)
theorem setaRm8 : Statement .setaRm8 := of_rowReads (rowReads_all _)
theorem setsRm8 : Statement .setsRm8 := of_rowReads (rowReads_all _)
theorem setnsRm8 : Statement .setnsRm8 := of_rowReads (rowReads_all _)
theorem setpRm8 : Statement .setpRm8 := of_rowReads (rowReads_all _)
theorem setnpRm8 : Statement .setnpRm8 := of_rowReads (rowReads_all _)
theorem setlRm8 : Statement .setlRm8 := of_rowReads (rowReads_all _)
theorem setgeRm8 : Statement .setgeRm8 := of_rowReads (rowReads_all _)
theorem setleRm8 : Statement .setleRm8 := of_rowReads (rowReads_all _)
theorem setgRm8 : Statement .setgRm8 := of_rowReads (rowReads_all _)
theorem imulR32Rm32 : Statement .imulR32Rm32 := of_rowReads (rowReads_all _)
theorem lssR32M : Statement .lssR32M := of_rowReads (rowReads_all _)
theorem lfsR32M : Statement .lfsR32M := of_rowReads (rowReads_all _)
theorem lgsR32M : Statement .lgsR32M := of_rowReads (rowReads_all _)
theorem movzxR32Rm8 : Statement .movzxR32Rm8 := of_rowReads (rowReads_all _)
theorem movzxR32Rm16 : Statement .movzxR32Rm16 := of_rowReads (rowReads_all _)
theorem bsfR32Rm32 : Statement .bsfR32Rm32 := of_rowReads (rowReads_all _)
theorem bsrR32Rm32 : Statement .bsrR32Rm32 := of_rowReads (rowReads_all _)
theorem movsxR32Rm8 : Statement .movsxR32Rm8 := of_rowReads (rowReads_all _)
theorem movsxR32Rm16 : Statement .movsxR32Rm16 := of_rowReads (rowReads_all _)
theorem faddM32fp : Statement .faddM32fp := of_rowReads (rowReads_all _)
theorem fmulM32fp : Statement .fmulM32fp := of_rowReads (rowReads_all _)
theorem fcomM32fp : Statement .fcomM32fp := of_rowReads (rowReads_all _)
theorem fcompM32fp : Statement .fcompM32fp := of_rowReads (rowReads_all _)
theorem fsubM32fp : Statement .fsubM32fp := of_rowReads (rowReads_all _)
theorem fsubrM32fp : Statement .fsubrM32fp := of_rowReads (rowReads_all _)
theorem fdivM32fp : Statement .fdivM32fp := of_rowReads (rowReads_all _)
theorem fdivrM32fp : Statement .fdivrM32fp := of_rowReads (rowReads_all _)
theorem fiaddM32int : Statement .fiaddM32int := of_rowReads (rowReads_all _)
theorem fimulM32int : Statement .fimulM32int := of_rowReads (rowReads_all _)
theorem ficomM32int : Statement .ficomM32int := of_rowReads (rowReads_all _)
theorem ficompM32int : Statement .ficompM32int := of_rowReads (rowReads_all _)
theorem fisubM32int : Statement .fisubM32int := of_rowReads (rowReads_all _)
theorem fisubrM32int : Statement .fisubrM32int := of_rowReads (rowReads_all _)
theorem fidivM32int : Statement .fidivM32int := of_rowReads (rowReads_all _)
theorem fidivrM32int : Statement .fidivrM32int := of_rowReads (rowReads_all _)
theorem faddM64fp : Statement .faddM64fp := of_rowReads (rowReads_all _)
theorem fmulM64fp : Statement .fmulM64fp := of_rowReads (rowReads_all _)
theorem fcomM64fp : Statement .fcomM64fp := of_rowReads (rowReads_all _)
theorem fcompM64fp : Statement .fcompM64fp := of_rowReads (rowReads_all _)
theorem fsubM64fp : Statement .fsubM64fp := of_rowReads (rowReads_all _)
theorem fsubrM64fp : Statement .fsubrM64fp := of_rowReads (rowReads_all _)
theorem fdivM64fp : Statement .fdivM64fp := of_rowReads (rowReads_all _)
theorem fdivrM64fp : Statement .fdivrM64fp := of_rowReads (rowReads_all _)
theorem fiaddM16int : Statement .fiaddM16int := of_rowReads (rowReads_all _)
theorem fimulM16int : Statement .fimulM16int := of_rowReads (rowReads_all _)
theorem ficomM16int : Statement .ficomM16int := of_rowReads (rowReads_all _)
theorem ficompM16int : Statement .ficompM16int := of_rowReads (rowReads_all _)
theorem fisubM16int : Statement .fisubM16int := of_rowReads (rowReads_all _)
theorem fisubrM16int : Statement .fisubrM16int := of_rowReads (rowReads_all _)
theorem fidivM16int : Statement .fidivM16int := of_rowReads (rowReads_all _)
theorem fidivrM16int : Statement .fidivrM16int := of_rowReads (rowReads_all _)
theorem fldM32fp : Statement .fldM32fp := of_rowReads (rowReads_all _)
theorem fstM32fp : Statement .fstM32fp := of_rowReads (rowReads_all _)
theorem fstpM32fp : Statement .fstpM32fp := of_rowReads (rowReads_all _)
theorem fldcwM16 : Statement .fldcwM16 := of_rowReads (rowReads_all _)
theorem fnstcwM16 : Statement .fnstcwM16 := of_rowReads (rowReads_all _)
theorem fildM32int : Statement .fildM32int := of_rowReads (rowReads_all _)
theorem fistM32int : Statement .fistM32int := of_rowReads (rowReads_all _)
theorem fistpM32int : Statement .fistpM32int := of_rowReads (rowReads_all _)
theorem fldM80fp : Statement .fldM80fp := of_rowReads (rowReads_all _)
theorem fstpM80fp : Statement .fstpM80fp := of_rowReads (rowReads_all _)
theorem fldM64fp : Statement .fldM64fp := of_rowReads (rowReads_all _)
theorem fstM64fp : Statement .fstM64fp := of_rowReads (rowReads_all _)
theorem fstpM64fp : Statement .fstpM64fp := of_rowReads (rowReads_all _)
theorem fnstswM16 : Statement .fnstswM16 := of_rowReads (rowReads_all _)
theorem fildM16int : Statement .fildM16int := of_rowReads (rowReads_all _)
theorem fistM16int : Statement .fistM16int := of_rowReads (rowReads_all _)
theorem fistpM16int : Statement .fistpM16int := of_rowReads (rowReads_all _)
theorem fildM64int : Statement .fildM64int := of_rowReads (rowReads_all _)
theorem fistpM64int : Statement .fistpM64int := of_rowReads (rowReads_all _)
theorem faddSt0Sti : Statement .faddSt0Sti := of_rowReads (rowReads_all _)
theorem fmulSt0Sti : Statement .fmulSt0Sti := of_rowReads (rowReads_all _)
theorem fcomSti : Statement .fcomSti := of_rowReads (rowReads_all _)
theorem fcompSti : Statement .fcompSti := of_rowReads (rowReads_all _)
theorem fsubSt0Sti : Statement .fsubSt0Sti := of_rowReads (rowReads_all _)
theorem fsubrSt0Sti : Statement .fsubrSt0Sti := of_rowReads (rowReads_all _)
theorem fdivSt0Sti : Statement .fdivSt0Sti := of_rowReads (rowReads_all _)
theorem fdivrSt0Sti : Statement .fdivrSt0Sti := of_rowReads (rowReads_all _)
theorem fldSti : Statement .fldSti := of_rowReads (rowReads_all _)
theorem fxchSti : Statement .fxchSti := of_rowReads (rowReads_all _)
theorem fnop : Statement .fnop := of_rowReads (rowReads_all _)
theorem fchs : Statement .fchs := of_rowReads (rowReads_all _)
theorem fabs : Statement .fabs := of_rowReads (rowReads_all _)
theorem ftst : Statement .ftst := of_rowReads (rowReads_all _)
theorem fld1 : Statement .fld1 := of_rowReads (rowReads_all _)
theorem fldl2t : Statement .fldl2t := of_rowReads (rowReads_all _)
theorem fldl2e : Statement .fldl2e := of_rowReads (rowReads_all _)
theorem fldpi : Statement .fldpi := of_rowReads (rowReads_all _)
theorem fldlg2 : Statement .fldlg2 := of_rowReads (rowReads_all _)
theorem fldln2 : Statement .fldln2 := of_rowReads (rowReads_all _)
theorem fldz : Statement .fldz := of_rowReads (rowReads_all _)
theorem fdecstp : Statement .fdecstp := of_rowReads (rowReads_all _)
theorem fincstp : Statement .fincstp := of_rowReads (rowReads_all _)
theorem fsqrt : Statement .fsqrt := of_rowReads (rowReads_all _)
theorem fcmovbSt0Sti : Statement .fcmovbSt0Sti := of_rowReads (rowReads_all _)
theorem fcmoveSt0Sti : Statement .fcmoveSt0Sti := of_rowReads (rowReads_all _)
theorem fcmovbeSt0Sti : Statement .fcmovbeSt0Sti := of_rowReads (rowReads_all _)
theorem fcmovuSt0Sti : Statement .fcmovuSt0Sti := of_rowReads (rowReads_all _)
theorem fucompp : Statement .fucompp := of_rowReads (rowReads_all _)
theorem fcmovnbSt0Sti : Statement .fcmovnbSt0Sti := of_rowReads (rowReads_all _)
theorem fcmovneSt0Sti : Statement .fcmovneSt0Sti := of_rowReads (rowReads_all _)
theorem fcmovnbeSt0Sti : Statement .fcmovnbeSt0Sti := of_rowReads (rowReads_all _)
theorem fcmovnuSt0Sti : Statement .fcmovnuSt0Sti := of_rowReads (rowReads_all _)
theorem fnclex : Statement .fnclex := of_rowReads (rowReads_all _)
theorem fninit : Statement .fninit := of_rowReads (rowReads_all _)
theorem fucomiSt0Sti : Statement .fucomiSt0Sti := of_rowReads (rowReads_all _)
theorem fcomiSt0Sti : Statement .fcomiSt0Sti := of_rowReads (rowReads_all _)
theorem faddStiSt0 : Statement .faddStiSt0 := of_rowReads (rowReads_all _)
theorem fmulStiSt0 : Statement .fmulStiSt0 := of_rowReads (rowReads_all _)
theorem fsubrStiSt0 : Statement .fsubrStiSt0 := of_rowReads (rowReads_all _)
theorem fsubStiSt0 : Statement .fsubStiSt0 := of_rowReads (rowReads_all _)
theorem fdivrStiSt0 : Statement .fdivrStiSt0 := of_rowReads (rowReads_all _)
theorem fdivStiSt0 : Statement .fdivStiSt0 := of_rowReads (rowReads_all _)
theorem ffreeSti : Statement .ffreeSti := of_rowReads (rowReads_all _)
theorem fstSti : Statement .fstSti := of_rowReads (rowReads_all _)
theorem fstpSti : Statement .fstpSti := of_rowReads (rowReads_all _)
theorem fucomSti : Statement .fucomSti := of_rowReads (rowReads_all _)
theorem fucompSti : Statement .fucompSti := of_rowReads (rowReads_all _)
theorem faddpStiSt0 : Statement .faddpStiSt0 := of_rowReads (rowReads_all _)
theorem fmulpStiSt0 : Statement .fmulpStiSt0 := of_rowReads (rowReads_all _)
theorem fcompp : Statement .fcompp := of_rowReads (rowReads_all _)
theorem fsubrpStiSt0 : Statement .fsubrpStiSt0 := of_rowReads (rowReads_all _)
theorem fsubpStiSt0 : Statement .fsubpStiSt0 := of_rowReads (rowReads_all _)
theorem fdivrpStiSt0 : Statement .fdivrpStiSt0 := of_rowReads (rowReads_all _)
theorem fdivpStiSt0 : Statement .fdivpStiSt0 := of_rowReads (rowReads_all _)
theorem fnstswAx : Statement .fnstswAx := of_rowReads (rowReads_all _)
theorem fucomipSt0Sti : Statement .fucomipSt0Sti := of_rowReads (rowReads_all _)
theorem fcomipSt0Sti : Statement .fcomipSt0Sti := of_rowReads (rowReads_all _)

end Sys2Proof.Laws.F
end

