-- ==== Sys2Proof/Laws/Round.lean ====
section
/-! SUPPORT. Rounding to binary64 (spec/00_scope.md R25): the values of consecutive magnitudes rise, and
`packMagnitude` picks the nearest of them, of two equally near ones the even one. -/

namespace Sys2Proof.Laws

open Sys2Proof.Machine Sys2Proof.Claims

/-! ### The value of a magnitude -/

/-- The number that magnitude bits stand for, without a bound on the exponent (R25). -/
noncomputable def magVal (n : Nat) : ℝ :=
  ((if n / 2 ^ 52 = 0 then n % 2 ^ 52 else 2 ^ 52 + n % 2 ^ 52 : Nat) : ℝ) *
    (2 : ℝ) ^ (-1074 + ((n / 2 ^ 52 - 1 : Nat) : Int))

/-- The value of a significand `mant` at the unit `2^(k - 1074)`: subnormal if `k = 0`, normal if the
significand has 53 bits; a carry to 2^53 runs into the exponent. -/
theorem magVal_pack {k mant : Nat} (h1 : mant ≤ 2 ^ 53) (h2 : k = 0 ∨ 2 ^ 52 ≤ mant) :
    magVal (k * 2 ^ 52 + mant) = (mant : ℝ) * (2 : ℝ) ^ (-1074 + (k : Int)) := by
  by_cases hm : mant < 2 ^ 52
  · obtain rfl : k = 0 := h2.resolve_right (by omega)
    have e1 : (0 * 2 ^ 52 + mant) / 2 ^ 52 = 0 := by omega
    have e2 : (0 * 2 ^ 52 + mant) % 2 ^ 52 = mant := by omega
    unfold magVal
    rw [e1, e2, if_pos rfl]
  · by_cases hm2 : mant < 2 ^ 53
    · have e1 : (k * 2 ^ 52 + mant) / 2 ^ 52 = k + 1 := by omega
      have e2 : (k * 2 ^ 52 + mant) % 2 ^ 52 = mant - 2 ^ 52 := by omega
      unfold magVal
      rw [e1, e2, if_neg (by omega), show 2 ^ 52 + (mant - 2 ^ 52) = mant by omega, Nat.add_sub_cancel]
    · obtain rfl : mant = 2 ^ 53 := by omega
      have e1 : (k * 2 ^ 52 + 2 ^ 53) / 2 ^ 52 = k + 2 := by omega
      have e2 : (k * 2 ^ 52 + 2 ^ 53) % 2 ^ 52 = 0 := by omega
      unfold magVal
      rw [e1, e2, if_neg (by omega), show k + 2 - 1 = k + 1 by omega,
        show (-1074 + ((k + 1 : Nat) : Int)) = (-1074 + (k : Int)) + 1 by push_cast; ring,
        zpow_add₀ (by norm_num)]
      norm_num
      ring

theorem two_zpow_pos (i : Int) : (0 : ℝ) < (2 : ℝ) ^ i := zpow_pos (by norm_num) i

/-- The magnitude after one is at least a unit of its exponent away. -/
theorem magVal_succ {k mant : Nat} (h1 : mant ≤ 2 ^ 53) (h2 : k = 0 ∨ 2 ^ 52 ≤ mant) :
    magVal (k * 2 ^ 52 + mant) + (2 : ℝ) ^ (-1074 + (k : Int)) ≤ magVal (k * 2 ^ 52 + mant + 1) := by
  have hu := two_zpow_pos (-1074 + (k : Int))
  rw [magVal_pack h1 h2]
  by_cases hm : mant = 2 ^ 53
  · subst hm
    have : k * 2 ^ 52 + 2 ^ 53 + 1 = (k + 1) * 2 ^ 52 + (2 ^ 52 + 1) := by omega
    rw [this, magVal_pack (by norm_num) (.inr (by norm_num)),
      show (-1074 + ((k + 1 : Nat) : Int)) = (-1074 + (k : Int)) + 1 by push_cast; ring, zpow_add_one₀ (by norm_num)]
    generalize (2 : ℝ) ^ (-1074 + (k : Int)) = u at hu ⊢
    rw [show ((2 ^ 53 : Nat) : ℝ) = 9007199254740992 by norm_num,
      show ((2 ^ 52 + 1 : Nat) : ℝ) = 4503599627370497 by norm_num]
    linarith
  · rw [add_assoc, magVal_pack (by omega) (h2.imp id (by omega))]
    push_cast
    linarith

/-- Every magnitude is a significand at a unit. -/
theorem pack_split (n : Nat) : ∃ k mant : Nat, mant ≤ 2 ^ 53 ∧ (k = 0 ∨ 2 ^ 52 ≤ mant) ∧ n = k * 2 ^ 52 + mant := by
  by_cases h : n < 2 ^ 52
  · exact ⟨0, n, by omega, .inl rfl, by omega⟩
  · refine ⟨n / 2 ^ 52 - 1, 2 ^ 52 + n % 2 ^ 52, by omega, .inr (by omega), ?_⟩
    omega

theorem magVal_strictMono : StrictMono magVal := by
  refine strictMono_nat_of_lt_succ fun n => ?_
  obtain ⟨k, mant, h1, h2, rfl⟩ := pack_split n
  have := magVal_succ h1 h2
  have hu := two_zpow_pos (-1074 + (k : Int))
  linarith

theorem magVal_zero : magVal 0 = 0 := by
  have := magVal_pack (k := 0) (mant := 0) (by norm_num) (.inl rfl)
  simpa using this

theorem magVal_nonneg (n : Nat) : 0 ≤ magVal n := by
  rw [← magVal_zero]
  exact magVal_strictMono.monotone (Nat.zero_le n)

/-- Below a significand above the least normal one, the magnitudes are at least a unit away. -/
theorem magVal_below {k mant n : Nat} (h1 : mant ≤ 2 ^ 53) (h2 : k = 0 ∨ 2 ^ 52 < mant)
    (hn : n < k * 2 ^ 52 + mant) :
    magVal n ≤ magVal (k * 2 ^ 52 + mant) - (2 : ℝ) ^ (-1074 + (k : Int)) := by
  obtain ⟨m, rfl⟩ : ∃ m, mant = m + 1 := by
    cases mant with
    | zero => rcases h2 with rfl | h2 <;> omega
    | succ m => exact ⟨m, rfl⟩
  have h := magVal_strictMono.monotone (show n ≤ k * 2 ^ 52 + m by omega)
  rw [magVal_pack h1 (h2.imp id (by omega))]
  rw [magVal_pack (by omega) (h2.imp id (by omega))] at h
  push_cast
  linarith

/-- The infinity's bits stand for 2^1024 here. -/
theorem magVal_inf : magVal inf64 = (2 : ℝ) ^ (1024 : Int) := by
  have : inf64 = 2046 * 2 ^ 52 + 2 ^ 52 := by rw [inf64]; norm_num
  rw [this, magVal_pack (by norm_num) (.inr (by norm_num))]
  rw [show ((2 ^ 52 : Nat) : ℝ) = (2 : ℝ) ^ (52 : Int) by norm_num, ← zpow_add₀ (by norm_num)]
  norm_num

/-! ### Rounding a significand -/

/-- `roundShift` gives an integer nearest to `y`, the value of `m` with the rest under its low `k + 1` bits;
of two equally near ones the even one. -/
theorem roundShift_near {m k : Nat} {sticky : Bool} {x : ℝ}
    (hx : if sticky then (m : ℝ) < x ∧ x < m + 1 else x = m) :
    let y := x / 2 ^ (k + 1)
    let r := roundShift m (k + 1) sticky
    |y - r| ≤ 1 / 2 ∧ (|y - r| = 1 / 2 → r % 2 = 0) ∧ m / 2 ^ (k + 1) ≤ r ∧ r ≤ m / 2 ^ (k + 1) + 1 := by
  intro y r
  have hpos : (0 : ℝ) < 2 ^ k := by positivity
  set Q := m / 2 ^ (k + 1) with hQ
  set R := m % 2 ^ (k + 1) with hR
  have hm : (m : ℝ) = Q * (2 * 2 ^ k) + R := by
    have := Nat.div_add_mod m (2 ^ (k + 1))
    rw [← hQ, ← hR] at this
    rw [← this, pow_succ]
    push_cast
    ring
  have hRlt : R < 2 * 2 ^ k := by
    have := Nat.mod_lt m (show 2 ^ (k + 1) > 0 by positivity)
    rw [← hR, pow_succ] at this
    omega
  have hRlt' : (R : ℝ) + 1 ≤ 2 * 2 ^ k := by exact_mod_cast hRlt
  have hlo : (m : ℝ) ≤ x := by split at hx <;> linarith [hx]
  have hhi : x < m + 1 := by split at hx <;> linarith [hx]
  have hy : y * (2 * 2 ^ k) = x := by
    simp only [y, pow_succ]
    field_simp
  have hr : r = if (decide (2 ^ k < R) || (decide (R = 2 ^ k) && (sticky || Q % 2 == 1))) then Q + 1 else Q := by
    simp only [r, roundShift, Nat.shiftRight_eq_div_pow]
    rfl
  have yq : y = Q + (x - m + R) / (2 * 2 ^ k) := by
    rw [eq_comm, ← eq_sub_iff_add_eq', div_eq_iff (by positivity)]
    rw [sub_mul, hy, hm]
    ring
  have hfin : Q ≤ r ∧ r ≤ Q + 1 := by rw [hr]; split <;> omega
  refine ⟨?_, ?_, hfin⟩
  all_goals rw [hr]
  · by_cases h1 : 2 ^ k < R
    · have h1' : (2 : ℝ) ^ k + 1 ≤ R := by exact_mod_cast h1
      simp only [h1, decide_true, Bool.true_or, if_true]
      rw [yq, abs_le]
      push_cast
      constructor
      · have : (1 : ℝ) / 2 ≤ (x - m + R) / (2 * 2 ^ k) := by
          rw [div_le_div_iff₀ (by norm_num) (by positivity)]
          nlinarith
        linarith
      · have : (x - m + R) / (2 * 2 ^ k) ≤ 1 := by
          rw [div_le_one (by positivity)]
          linarith
        linarith
    · by_cases h2 : R = 2 ^ k
      · have h2' : (R : ℝ) = 2 ^ k := by exact_mod_cast h2
        have e : (x - m + R) / (2 * 2 ^ k) = 1 / 2 + (x - m) / (2 * 2 ^ k) := by
          rw [h2']
          field_simp
          ring
        have hz : 0 ≤ (x - m) / (2 * 2 ^ k) := div_nonneg (by linarith) (by positivity)
        have hz1 : (x - m) / (2 * 2 ^ k) ≤ 1 / 2 := by
          rw [div_le_div_iff₀ (by positivity) (by norm_num)]
          have : (1 : ℝ) ≤ 2 ^ k := one_le_pow₀ (by norm_num)
          nlinarith
        rw [yq, e]
        cases sticky with
        | true =>
          simp only [h2, decide_true, Bool.true_or, Bool.and_true, Bool.or_true, if_true]
          rw [abs_le]
          push_cast
          constructor <;> linarith
        | false =>
          have hx : x = m := by simpa using hx
          have e0 : (x - m) / (2 * 2 ^ k) = 0 := by rw [hx]; simp
          rw [e0]
          split
          · rw [abs_le]; push_cast; constructor <;> linarith
          · rw [abs_le]; constructor <;> linarith
      · have h3 : (R : ℝ) + 1 ≤ 2 ^ k := by
          have : R + 1 ≤ 2 ^ k := by omega
          exact_mod_cast this
        simp only [h1, h2, decide_false, Bool.false_and, Bool.or_false, Bool.false_eq_true, if_false]
        rw [yq, abs_le]
        have hz : 0 ≤ (x - m + R) / (2 * 2 ^ k) := div_nonneg (by linarith [Nat.cast_nonneg (α := ℝ) R]) (by positivity)
        have hz1 : (x - m + R) / (2 * 2 ^ k) ≤ 1 / 2 := by
          rw [div_le_div_iff₀ (by positivity) (by norm_num)]
          nlinarith
        constructor <;> linarith
  · by_cases h1 : 2 ^ k < R
    · have h1' : (2 : ℝ) ^ k + 1 ≤ R := by exact_mod_cast h1
      simp only [h1, decide_true, Bool.true_or, if_true]
      rw [yq]
      push_cast
      intro h
      exfalso
      have : (1 : ℝ) / 2 < (x - m + R) / (2 * 2 ^ k) := by
        rw [div_lt_div_iff₀ (by norm_num) (by positivity)]
        nlinarith
      have h2 : (x - m + R) / (2 * 2 ^ k) ≤ 1 := by
        rw [div_le_one (by positivity)]
        linarith
      rw [abs_of_nonpos (by linarith)] at h
      linarith
    · by_cases h2 : R = 2 ^ k
      · have h2' : (R : ℝ) = 2 ^ k := by exact_mod_cast h2
        cases sticky with
        | true =>
          simp only [h2, decide_true, Bool.true_or, Bool.and_true, Bool.or_true, if_true]
          have hx : (m : ℝ) < x := (by simpa using hx : (m : ℝ) < x ∧ x < m + 1).1
          rw [yq]
          push_cast
          intro h
          exfalso
          have : (1 : ℝ) / 2 < (x - m + R) / (2 * 2 ^ k) := by
            rw [div_lt_div_iff₀ (by norm_num) (by positivity)]
            nlinarith
          have h2 : (x - m + R) / (2 * 2 ^ k) ≤ 1 := by
            rw [div_le_one (by positivity)]
            linarith
          rw [abs_of_nonpos (by linarith)] at h
          linarith
        | false =>
          intro _
          by_cases hq : Q % 2 = 1
          · simp only [h2, hq, decide_true, beq_self_eq_true, Bool.or_true, Bool.and_true,
              if_true]
            omega
          · have : (Q % 2 == 1) = false := by simpa using hq
            simp only [h1, this, decide_false, Bool.or_false, Bool.and_false, Bool.false_eq_true, if_false]
            omega
      · have h3 : (R : ℝ) + 1 ≤ 2 ^ k := by
          have : R + 1 ≤ 2 ^ k := by omega
          exact_mod_cast this
        simp only [h1, h2, decide_false, Bool.false_and, Bool.or_false, Bool.false_eq_true, if_false]
        rw [yq]
        intro h
        exfalso
        have hz : 0 ≤ (x - m + R) / (2 * 2 ^ k) := div_nonneg (by linarith [Nat.cast_nonneg (α := ℝ) R]) (by positivity)
        have hz1 : (x - m + R) / (2 * 2 ^ k) < 1 / 2 := by
          rw [div_lt_div_iff₀ (by positivity) (by norm_num)]
          nlinarith
        rw [abs_of_nonneg (by linarith)] at h
        linarith

/-! ### Rounding a magnitude -/

/-- `k * 2^52 + mant` is a magnitude nearest to `X` among all magnitudes, even if another is as near, before the
overflow to infinity. -/
structure Near (X : ℝ) (k mant : Nat) : Prop where
  le : mant ≤ 2 ^ 53
  normal : k = 0 ∨ 2 ^ 52 ≤ mant
  half : |X - mant * (2 : ℝ) ^ (-1074 + (k : Int))| ≤ (2 : ℝ) ^ (-1074 + (k : Int)) / 2
  even : |X - mant * (2 : ℝ) ^ (-1074 + (k : Int))| = (2 : ℝ) ^ (-1074 + (k : Int)) / 2 → mant % 2 = 0
  least : k = 0 ∨ (2 : ℝ) ^ 52 * (2 : ℝ) ^ (-1074 + (k : Int)) ≤ X

/-- `p` are the magnitude bits that `X` rounds to: below the overflow threshold the nearest finite magnitude, of
two equally near ones the even one, and from the threshold on the infinity (R25). -/
def RoundsTo (X : ℝ) (p : Nat) : Prop :=
  if X < (2 : ℝ) ^ (1024 : Int) - (2 : ℝ) ^ (970 : Int) then
    p < inf64 ∧ (∀ n : Nat, |X - magVal p| ≤ |X - magVal n|) ∧
      ∀ n : Nat, n ≠ p → |X - magVal n| = |X - magVal p| → p % 2 = 0
  else p = inf64

theorem Near.rounds {X : ℝ} {k mant : Nat} (h : Near X k mant) : RoundsTo X (min inf64 (k * 2 ^ 52 + mant)) := by
  have hV := magVal_pack h.le h.normal
  have hS := magVal_succ h.le h.normal
  have hu := two_zpow_pos (-1074 + (k : Int))
  have hhalf := abs_le.mp h.half
  have hthr : (2 : ℝ) ^ (1024 : Int) - (2 : ℝ) ^ (970 : Int) = (2 ^ 54 - 1) * (2 : ℝ) ^ (970 : Int) := by
    rw [show (1024 : Int) = 54 + 970 by norm_num, zpow_add₀ (by norm_num)]
    rw [show (2 : ℝ) ^ (54 : Int) = 2 ^ 54 by norm_cast]
    generalize (2 : ℝ) ^ (970 : Int) = w
    ring
  have hinf : inf64 = 2047 * 2 ^ 52 := by rw [inf64]; norm_num
  have hm53 : (mant : ℝ) ≤ 2 ^ 53 := by exact_mod_cast h.le
  have hk0 : k ≤ 2044 → (2 : ℝ) ^ (-1074 + (k : Int)) ≤ (2 : ℝ) ^ (970 : Int) := fun hk =>
    zpow_le_zpow_right₀ (by norm_num) (by omega)
  have hk1 : k = 2045 → (2 : ℝ) ^ (-1074 + (k : Int)) = 2 * (2 : ℝ) ^ (970 : Int) := by
    rintro rfl
    rw [show (-1074 + ((2045 : Nat) : Int)) = 970 + 1 by norm_num, zpow_add_one₀ (by norm_num)]
    ring
  have hk2 : 2046 ≤ k → 4 * (2 : ℝ) ^ (970 : Int) ≤ (2 : ℝ) ^ (-1074 + (k : Int)) := by
    intro hk
    have e : (4 : ℝ) * (2 : ℝ) ^ (970 : Int) = (2 : ℝ) ^ (972 : Int) := by
      rw [show (972 : Int) = 2 + 970 by norm_num, zpow_add₀ (by norm_num)]
      norm_num
    rw [e]
    exact zpow_le_zpow_right₀ (by norm_num) (by omega)
  have h970 := two_zpow_pos 970
  have hdist := h.half
  have heven := h.even
  have hleast := h.least
  unfold RoundsTo
  rw [hthr]
  generalize (2 : ℝ) ^ (970 : Int) = w at hk0 hk1 hk2 h970 ⊢
  generalize hue : (2 : ℝ) ^ (-1074 + (k : Int)) = u at hk0 hk1 hk2 hV hS hu hhalf hdist heven hleast
  split
  · rename_i hX
    have hlt : k * 2 ^ 52 + mant < inf64 := by
      by_contra hge
      rw [hinf] at hge
      have hk : 2045 ≤ k := by have := h.le; omega
      rcases Nat.lt_or_ge k 2046 with hk' | hk'
      · have e := hk1 (by omega)
        have hm : mant = 2 ^ 53 := by have := h.le; omega
        rw [hm, e] at hhalf
        push_cast at hhalf
        linarith [hhalf.1]
      · have h4 := hk2 hk'
        have := hleast.resolve_left (by omega)
        linarith
    rw [Nat.min_eq_right hlt.le, hV]
    refine ⟨hlt, fun n => ?_, fun n hn heq => ?_⟩
    · rcases Nat.lt_trichotomy n (k * 2 ^ 52 + mant) with hlt | rfl | hgt
      · by_cases hm : k = 0 ∨ 2 ^ 52 < mant
        · have hb := magVal_below h.le hm hlt
          rw [hV, hue] at hb
          have := abs_le.mp hdist
          rw [abs_of_nonneg (show 0 ≤ X - magVal n by linarith)]
          exact hdist.trans (by linarith)
        · have hk : k ≠ 0 := fun hh => hm (.inl hh)
          have hm : mant = 2 ^ 52 := by have := h.normal; omega
          have hX := hleast.resolve_left hk
          have hlt := magVal_strictMono hlt
          rw [hV, hm] at hlt
          rw [hm]
          push_cast at hlt ⊢
          rw [abs_of_nonneg (by linarith), abs_of_nonneg (by linarith)]
          linarith
      · rw [hV]
      · have hb := magVal_strictMono.monotone (Nat.succ_le_of_lt hgt)
        rw [hV] at hS
        rw [abs_sub_comm X (magVal n), abs_of_nonneg (show 0 ≤ magVal n - X by
          have : magVal (k * 2 ^ 52 + mant + 1) ≤ magVal n := hb
          linarith)]
        exact hdist.trans (by
          have : magVal (k * 2 ^ 52 + mant + 1) ≤ magVal n := hb
          linarith)
    · suffices hh : |X - mant * u| = u / 2 by
        have := heven hh
        omega
      rcases Nat.lt_or_gt_of_ne hn with hlt | hgt
      · by_cases hm : k = 0 ∨ 2 ^ 52 < mant
        · have hb := magVal_below h.le hm hlt
          rw [hV, hue] at hb
          rw [abs_of_nonneg (show 0 ≤ X - magVal n by linarith)] at heq
          exact le_antisymm hdist (by linarith)
        · exfalso
          have hk : k ≠ 0 := fun hh => hm (.inl hh)
          have hm : mant = 2 ^ 52 := by have := h.normal; omega
          have hX := hleast.resolve_left hk
          have hlt := magVal_strictMono hlt
          rw [hV, hm] at hlt
          rw [hm] at heq
          push_cast at hlt heq
          rw [abs_of_nonneg (by linarith), abs_of_nonneg (by linarith)] at heq
          linarith
      · have hb : magVal (k * 2 ^ 52 + mant + 1) ≤ magVal n := magVal_strictMono.monotone (Nat.succ_le_of_lt hgt)
        rw [hV] at hS
        rw [abs_sub_comm X (magVal n), abs_of_nonneg (show 0 ≤ magVal n - X by linarith)] at heq
        exact le_antisymm hdist (by linarith)
  · rename_i hX
    rw [Nat.min_eq_left]
    by_contra hlt
    rw [hinf] at hlt
    have hk : k ≤ 2045 := by have := h.normal; omega
    rcases Nat.lt_or_ge k 2045 with hk' | hk'
    · have h4 := hk0 (by omega)
      have : X ≤ (2 ^ 53 + 1 / 2) * u := by nlinarith [hhalf.2]
      nlinarith
    · obtain rfl : k = 2045 := by omega
      have e := hk1 rfl
      have hm : mant ≤ 2 ^ 53 - 1 := by omega
      by_cases hm1 : mant = 2 ^ 53 - 1
      · have hc : (mant : ℝ) = 2 ^ 53 - 1 := by rw [hm1]; norm_num
        have : |X - mant * u| = u / 2 := by
          refine le_antisymm hdist ?_
          refine le_trans ?_ (le_abs_self _)
          rw [hc, e]
          linarith
        have := heven this
        rw [hm1] at this
        norm_num at this
      · have hc : (mant : ℝ) ≤ 2 ^ 53 - 2 := by
          have : mant + 2 ≤ 2 ^ 53 := by omega
          have : (mant : ℝ) + 2 ≤ 2 ^ 53 := by exact_mod_cast this
          linarith
        have : X ≤ (2 ^ 53 - 2 + 1 / 2) * u := by nlinarith [hhalf.2]
        rw [e] at this
        linarith

/-- `packMagnitude` rounds `X = x * 2^q`, where `m` is `x` or, with a sticky rest, its integer part. -/
theorem packMagnitude_rounds {m : Nat} {q : Int} {sticky : Bool} {x : ℝ}
    (hx : if sticky then (m : ℝ) < x ∧ x < m + 1 else x = m) (hs : sticky = true → 2 ^ 53 ≤ m) :
    RoundsTo (x * (2 : ℝ) ^ q) (packMagnitude 53 (-1074) inf64 m q sticky) := by
  unfold packMagnitude
  by_cases hm : m = 0
  · subst hm
    have hst : sticky = false := by
      cases sticky with
      | false => rfl
      | true => exact absurd (hs rfl) (by norm_num)
    subst hst
    have hx : x = 0 := by simpa using hx
    rw [if_pos rfl, hx, zero_mul]
    have : (0 : ℝ) < (2 : ℝ) ^ (1024 : Int) - (2 : ℝ) ^ (970 : Int) :=
      sub_pos.mpr (zpow_lt_zpow_right₀ (by norm_num) (by norm_num))
    unfold RoundsTo
    rw [if_pos this]
    refine ⟨by rw [inf64]; norm_num, fun n => ?_, fun n _ _ => rfl⟩
    rw [magVal_zero, sub_zero, abs_zero]
    exact abs_nonneg _
  · rw [if_neg hm]
    simp only
    set L := Nat.log2 m with hL
    have hlow : 2 ^ L ≤ m := Nat.log2_self_le hm
    have hhigh : m < 2 ^ (L + 1) := Nat.lt_log2_self
    set t := max (q + ((L + 1 : Nat) : Int) - ((53 : Nat) : Int)) (-1074) with ht
    obtain ⟨k, hk⟩ : ∃ k : Nat, t = -1074 + (k : Int) := ⟨(t + 1074).toNat, by omega⟩
    have hk' : (t - -1074).toNat = k := by omega
    rw [hk', show 53 - 1 = 52 from rfl]
    apply Near.rounds
    by_cases htq : t ≤ q
    · rw [if_pos htq]
      obtain ⟨d, hd⟩ : ∃ d : Nat, q = t + (d : Int) := ⟨(q - t).toNat, by omega⟩
      have hdn : (q - t).toNat = d := by omega
      rw [hdn, Nat.shiftLeft_eq]
      have hst : sticky = false := by
        cases sticky with
        | false => rfl
        | true =>
          have h53 := hs rfl
          have : 2 ^ 53 < 2 ^ (L + 1) := lt_of_le_of_lt h53 hhigh
          have := (Nat.pow_lt_pow_iff_right (by norm_num : 1 < 2)).mp this
          omega
      subst hst
      have hx : x = m := by simpa using hx
      have hX : x * (2 : ℝ) ^ q = ((m * 2 ^ d : Nat) : ℝ) * (2 : ℝ) ^ (-1074 + (k : Int)) := by
        rw [hx, hd, zpow_add₀ (by norm_num), hk]
        push_cast
        rw [zpow_natCast]
        ring
      have hnorm : k = 0 ∨ 2 ^ 52 ≤ m * 2 ^ d := by
        by_cases hk0 : k = 0
        · exact .inl hk0
        · right
          have : L + d = 52 := by omega
          calc 2 ^ 52 = 2 ^ L * 2 ^ d := by rw [← pow_add, this]
            _ ≤ m * 2 ^ d := Nat.mul_le_mul_right _ hlow
      have hu := two_zpow_pos (-1074 + (k : Int))
      refine ⟨?_, hnorm, ?_, ?_, ?_⟩
      · have : L + 1 + d ≤ 53 := by omega
        calc m * 2 ^ d ≤ 2 ^ (L + 1) * 2 ^ d := Nat.mul_le_mul_right _ hhigh.le
          _ = 2 ^ (L + 1 + d) := by rw [← pow_add]
          _ ≤ 2 ^ 53 := Nat.pow_le_pow_right (by norm_num) this
      · rw [hX, sub_self, abs_zero]
        linarith
      · rw [hX, sub_self, abs_zero]
        intro h
        linarith
      · refine hnorm.imp id fun h => ?_
        rw [hX]
        have : (2 : ℝ) ^ 52 ≤ ((m * 2 ^ d : Nat) : ℝ) := by exact_mod_cast h
        exact mul_le_mul_of_nonneg_right this hu.le
    · rw [if_neg htq]
      obtain ⟨j, hj⟩ : ∃ j : Nat, t = q + ((j + 1 : Nat) : Int) := ⟨(t - q).toNat - 1, by omega⟩
      have hjn : (t - q).toNat = j + 1 := by omega
      rw [hjn]
      have hlo : (m : ℝ) ≤ x := by split at hx <;> linarith [hx]
      obtain ⟨h1, h2, h3, h4⟩ := roundShift_near (k := j) hx
      set r := roundShift m (j + 1) sticky with hr
      have hX : x * (2 : ℝ) ^ q = x / 2 ^ (j + 1) * (2 : ℝ) ^ (-1074 + (k : Int)) := by
        rw [← hk, hj, zpow_add₀ (by norm_num), zpow_natCast]
        field_simp
      have hu := two_zpow_pos (-1074 + (k : Int))
      have hQ : m / 2 ^ (j + 1) < 2 ^ 53 := by
        rw [Nat.div_lt_iff_lt_mul (by positivity), ← pow_add]
        exact lt_of_lt_of_le hhigh (Nat.pow_le_pow_right (by norm_num) (by omega))
      have hN : k = 0 ∨ 2 ^ 52 ≤ m / 2 ^ (j + 1) := by
        by_cases hk0 : k = 0
        · exact .inl hk0
        · right
          rw [Nat.le_div_iff_mul_le (by positivity), ← pow_add]
          exact le_trans (Nat.pow_le_pow_right (by norm_num) (by omega)) hlow
      have hd : |x * (2 : ℝ) ^ q - r * (2 : ℝ) ^ (-1074 + (k : Int))| =
          |x / 2 ^ (j + 1) - r| * (2 : ℝ) ^ (-1074 + (k : Int)) := by
        rw [hX, ← sub_mul, abs_mul, abs_of_pos hu]
      refine ⟨by omega, hN.imp id (by omega), ?_, ?_, ?_⟩
      · rw [hd]
        nlinarith
      · rw [hd]
        intro h
        refine h2 ?_
        have : |x / 2 ^ (j + 1) - r| * (2 : ℝ) ^ (-1074 + (k : Int)) = 1 / 2 * (2 : ℝ) ^ (-1074 + (k : Int)) := by
          linarith
        exact mul_right_cancel₀ hu.ne' this
      · refine hN.imp id fun h => ?_
        rw [hX]
        refine mul_le_mul_of_nonneg_right ?_ hu.le
        rw [le_div_iff₀ (by positivity)]
        refine le_trans ?_ hlo
        have := (Nat.le_div_iff_mul_le (show 0 < 2 ^ (j + 1) by positivity)).mp h
        exact_mod_cast this

/-! ### Patterns and the numbers they stand for -/

theorem isFinite_iff (v : F64) : isFinite v = true ↔ (v.extractLsb' 0 63).toNat < inf64 := by
  have h := magnitude_lt v
  rw [isFinite, bne_iff_ne, ne_eq, ← BitVec.toNat_inj, exponent_eq, inf64]
  simp only [BitVec.toNat_ofNat]
  omega

/-- A finite pattern is a sign and an integer times a power of two (R25). -/
theorem value64_finite {v : F64} (h : isFinite v = true) :
    ∃ (m : Nat) (q : Int), value64 v = .fin v.msb m q ∧ m < 2 ^ 53 ∧
      (m : ℝ) * (2 : ℝ) ^ q = magVal (v.extractLsb' 0 63).toNat := by
  have h1 := (isFinite_iff v).mp h
  rw [inf64] at h1
  have h2 : ¬ (v.extractLsb' 0 63).toNat / 2 ^ 52 = 0x7FF := by omega
  by_cases h3 : (v.extractLsb' 0 63).toNat / 2 ^ 52 = 0
  · refine ⟨_, _, by rw [value64, fieldsValue, exponent_eq, fraction_eq, if_neg h2, if_pos h3], by omega, ?_⟩
    rw [magVal, if_pos h3, h3]
    rfl
  · refine ⟨_, _, by rw [value64, fieldsValue, exponent_eq, fraction_eq, if_neg h2, if_neg h3], by omega, ?_⟩
    rw [magVal, if_neg h3]

/-- A sign as a number. -/
def signOf (neg : Bool) : ℝ := if neg then -1 else 1

theorem numeric_of_value {v : F64} {neg : Bool} {m : Nat} {q : Int} (h : value64 v = .fin neg m q) :
    (numeric v : ℝ) = signOf neg * ((m : ℝ) * (2 : ℝ) ^ q) := by
  rw [numeric, h]
  cases neg <;> simp [signOf]

theorem numeric_eq {v : F64} (h : isFinite v = true) :
    (numeric v : ℝ) = signOf v.msb * magVal (v.extractLsb' 0 63).toNat := by
  obtain ⟨m, q, h1, -, h2⟩ := value64_finite h
  rw [numeric_of_value h1, h2]

theorem isFinite_join64 (neg : Bool) {p : Nat} (h : p < inf64) : isFinite (join64 neg p) = true := by
  have : p < 2 ^ 63 := lt_trans h (by rw [inf64]; norm_num)
  rw [isFinite_iff, magnitude_join64 neg this]
  exact h

theorem numeric_join64 (neg : Bool) {p : Nat} (h : p < inf64) :
    (numeric (join64 neg p) : ℝ) = signOf neg * magVal p := by
  have : p < 2 ^ 63 := lt_trans h (by rw [inf64]; norm_num)
  rw [numeric_eq (isFinite_join64 neg h), msb_join64, magnitude_join64 neg this]

theorem signOf_abs (neg : Bool) (x : ℝ) : |signOf neg * x| = |x| := by
  cases neg <;> simp [signOf]

/-- What the magnitude rounds to, with its sign, is what the signed number rounds to (R25). -/
theorem roundedTo_join64 (neg : Bool) {X : ℝ} {p : Nat} (hX : 0 ≤ X) (h : RoundsTo X p) :
    RoundedTo (signOf neg * X) (join64 neg p) := by
  unfold RoundsTo at h
  unfold RoundedTo
  rw [signOf_abs, abs_of_nonneg hX]
  split at h
  · rename_i hlt
    rw [if_pos hlt]
    obtain ⟨hp, hnear, htie⟩ := h
    have key : ∀ z : F64, isFinite z = true →
        (z.msb = neg ∧ |signOf neg * X - numeric z| = |X - magVal (z.extractLsb' 0 63).toNat|) ∨
          |signOf neg * X - numeric z| = X + magVal (z.extractLsb' 0 63).toNat := by
      intro z hz
      have h0 := magVal_nonneg (z.extractLsb' 0 63).toNat
      rw [numeric_eq hz]
      by_cases hs : z.msb = neg
      · left
        refine ⟨hs, ?_⟩
        rw [hs, ← mul_sub, signOf_abs]
      · right
        have : signOf z.msb = - signOf neg := by
          revert hs
          cases z.msb <;> cases neg <;> simp [signOf]
        rw [this, neg_mul, sub_neg_eq_add, ← mul_add, signOf_abs, abs_of_nonneg (by linarith)]
    have h0 : |X - magVal 0| = X := by rw [magVal_zero, sub_zero, abs_of_nonneg hX]
    have hr : |signOf neg * X - numeric (join64 neg p)| = |X - magVal p| := by
      rw [numeric_join64 neg hp, ← mul_sub, signOf_abs]
    refine ⟨isFinite_join64 neg hp, fun z hz => ?_, fun z hz hne htie' => ?_⟩
    · rw [hr]
      rcases key z hz with ⟨-, e⟩ | e
      · rw [e]
        exact hnear _
      · rw [e]
        have := hnear 0
        have := magVal_nonneg (z.extractLsb' 0 63).toNat
        linarith
    · have hbit : p % 2 = 0 → (join64 neg p).getLsbD 0 = false := by
        intro h2
        rw [join64, BitVec.getLsbD_append, if_pos (by norm_num), BitVec.getLsbD_ofNat, Nat.testBit_zero]
        simp [h2]
      apply hbit
      rw [hr] at htie'
      rcases key z hz with ⟨hs, e⟩ | e
      · rw [e] at htie'
        refine htie _ (fun hpe => hne ?_) htie'
        have : (numeric z : ℝ) = numeric (join64 neg p) := by
          rw [numeric_eq hz, numeric_join64 neg hp, hpe, hs]
        exact_mod_cast this
      · rw [e] at htie'
        have h1 := hnear 0
        have h2 := magVal_nonneg (z.extractLsb' 0 63).toNat
        refine htie 0 (fun hp0 => hne ?_) (by linarith)
        have hz0 : magVal (z.extractLsb' 0 63).toNat = 0 := by linarith
        have : (numeric z : ℝ) = numeric (join64 neg p) := by
          rw [numeric_eq hz, numeric_join64 neg hp, hz0, ← hp0, magVal_zero, mul_zero, mul_zero]
        exact_mod_cast this
  · rename_i hge
    rw [if_neg hge, h]
    have hpos : (0 : ℝ) < (2 : ℝ) ^ (1024 : Int) - (2 : ℝ) ^ (970 : Int) :=
      sub_pos.mpr (zpow_lt_zpow_right₀ (by norm_num) (by norm_num))
    have hX' : 0 < X := lt_of_lt_of_le hpos (not_lt.mp hge)
    cases neg with
    | true =>
      rw [if_pos (by simpa [signOf] using hX')]
      decide
    | false =>
      rw [if_neg (by simpa [signOf] using hX)]
      decide

/-- `round64` rounds `x * 2^q`, where `m` is `x` or, with a sticky rest, its integer part (R25). -/
theorem round64_rounded (neg : Bool) {m : Nat} {q : Int} {sticky : Bool} {x : ℝ}
    (hx : if sticky then (m : ℝ) < x ∧ x < m + 1 else x = m) (hs : sticky = true → 2 ^ 53 ≤ m) :
    RoundedTo (signOf neg * (x * (2 : ℝ) ^ q)) (round64 neg m q sticky) := by
  refine roundedTo_join64 neg ?_ (packMagnitude_rounds hx hs)
  have hu := two_zpow_pos q
  have : 0 ≤ x := by
    have := Nat.cast_nonneg (α := ℝ) m
    split at hx <;> linarith [hx]
  positivity

/-! ### The square root -/

/-- `isqrtFrom` completes a root whose higher bits are known. -/
theorem isqrtFrom_root (m k : Nat) : ∀ acc : Nat, acc * acc ≤ m → m < (acc + 2 ^ k) * (acc + 2 ^ k) →
    isqrtFrom m k acc * isqrtFrom m k acc ≤ m ∧ m < (isqrtFrom m k acc + 1) * (isqrtFrom m k acc + 1) := by
  induction k with
  | zero => exact fun acc h1 h2 => ⟨h1, by simpa [isqrtFrom] using h2⟩
  | succ j ih =>
    intro acc h1 h2
    unfold isqrtFrom
    simp only
    split
    · rename_i h
      refine ih _ h ?_
      rwa [add_assoc, ← two_mul, ← pow_succ']
    · rename_i h
      exact ih _ h1 (Nat.lt_of_not_le h)

/-! ### Signs and zeros -/

theorem signOf_xor (a b : Bool) : signOf (a ^^ b) = signOf a * signOf b := by
  cases a <;> cases b <;> simp [signOf]

theorem signOf_ne (a : Bool) : signOf a ≠ 0 := by cases a <;> simp [signOf]

theorem signOf_mul_self (a : Bool) : signOf a * signOf a = 1 := by cases a <;> simp [signOf]

theorem roundedTo_zero (n : Bool) : RoundedTo 0 (join64 n 0) := by
  have := round64_rounded n (m := 0) (q := 0) (sticky := false) (x := 0) (by simp) nofun
  rw [show round64 n 0 0 false = join64 n 0 from rfl] at this
  simpa using this

/-- The sum of two finite values is rounded once (R25). -/
theorem add_rounded (n1 n2 : Bool) (m1 m2 : Nat) (q1 q2 : Int) :
    RoundedTo (signOf n1 * ((m1 : ℝ) * 2 ^ q1) + signOf n2 * ((m2 : ℝ) * 2 ^ q2)) (addFinite n1 m1 q1 n2 m2 q2) := by
  unfold addFinite
  extract_lets q a b sum
  obtain ⟨d1, h1⟩ : ∃ d : Nat, q1 - q = d := ⟨(q1 - q).toNat, by omega⟩
  obtain ⟨d2, h2⟩ : ∃ d : Nat, q2 - q = d := ⟨(q2 - q).toNat, by omega⟩
  have ha : (a : ℝ) * 2 ^ q = (m1 : ℝ) * 2 ^ q1 := by
    have : q1 = (d1 : Int) + q := by omega
    simp only [a, h1]
    rw [this, zpow_add₀ (by norm_num), Int.toNat_natCast, Nat.shiftLeft_eq]
    push_cast
    rw [zpow_natCast]
    ring
  have hb : (b : ℝ) * 2 ^ q = (m2 : ℝ) * 2 ^ q2 := by
    have : q2 = (d2 : Int) + q := by omega
    simp only [b, h2]
    rw [this, zpow_add₀ (by norm_num), Int.toNat_natCast, Nat.shiftLeft_eq]
    push_cast
    rw [zpow_natCast]
    ring
  have hs : (sum : ℝ) = signOf n1 * a + signOf n2 * b := by
    simp only [sum]
    cases n1 <;> cases n2 <;> simp [signOf]
  have hx : signOf n1 * ((m1 : ℝ) * 2 ^ q1) + signOf n2 * ((m2 : ℝ) * 2 ^ q2) = sum * 2 ^ q := by
    rw [← ha, ← hb, hs]
    ring
  rw [hx]
  split
  · rename_i h0
    rw [h0]
    simpa using roundedTo_zero (n1 && n2)
  · have := round64_rounded (decide (sum < 0)) (m := sum.natAbs) (q := q) (sticky := false) (x := sum.natAbs) (by simp) nofun
    convert this using 1
    rw [← mul_assoc]
    congr 1
    have : ((sum.natAbs : Nat) : ℝ) = |(sum : ℝ)| := by rw [Nat.cast_natAbs]; simp
    rw [this]
    by_cases h : sum < 0
    · have h' : (sum : ℝ) < 0 := by exact_mod_cast h
      simp [h, signOf, abs_of_neg h']
    · have h' : 0 ≤ (sum : ℝ) := by exact_mod_cast not_lt.mp h
      simp [h, signOf, abs_of_nonneg h']

theorem isFinite_negate (b : F64) : isFinite (negate b) = isFinite b := by
  rw [Bool.eq_iff_iff, isFinite_iff, isFinite_iff, magnitude_negate]

theorem numeric_negate {b : F64} (h : isFinite b = true) : (numeric (negate b) : ℝ) = - numeric b := by
  rw [numeric_eq h, numeric_eq ((isFinite_negate b).trans h), msb_negate, magnitude_negate]
  cases b.msb <;> simp [signOf]

/-- An integer root with at least 53 bits, and its sticky rest. -/
theorem sqrt_cond {m r : Nat} (h1 : r * r ≤ m) (h2 : m < (r + 1) * (r + 1)) (h3 : 2 ^ 112 ≤ m) :
    (if (r * r != m) then (r : ℝ) < Real.sqrt m ∧ Real.sqrt m < r + 1 else Real.sqrt m = r) ∧ 2 ^ 53 ≤ r := by
  constructor
  · split
    · rename_i hne
      have hne : r * r ≠ m := by simpa using hne
      have hc2 : (m : ℝ) < (r + 1) * (r + 1) := by exact_mod_cast h2
      have hlt' : (r : ℝ) * r < m := by exact_mod_cast lt_of_le_of_ne h1 hne
      constructor
      · exact Real.lt_sqrt_of_sq_lt (by rw [pow_two]; exact hlt')
      · rw [Real.sqrt_lt' (by positivity), pow_two]; exact hc2
    · rename_i heq
      have heq : r * r = m := by simpa using heq
      have : (m : ℝ) = r * r := by exact_mod_cast heq.symm
      rw [this, Real.sqrt_mul_self (Nat.cast_nonneg _)]
  · by_contra h
    have h : r + 1 ≤ 2 ^ 53 := by omega
    have := Nat.mul_le_mul h h
    omega

/-! ### Order -/

theorem isNan_finite {v : F64} (h : isFinite v = true) : isNan v = false := by
  cases hn : isNan v with
  | false => rfl
  | true =>
    have h1 := (isNan_iff v).mp hn
    have h2 := (isFinite_iff v).mp h
    omega

/-- The signed value of an order key. -/
noncomputable def keyVal (i : Int) : ℝ := if i < 0 then - magVal i.natAbs else magVal i.natAbs

theorem keyVal_strictMono : StrictMono keyVal := by
  intro a b h
  unfold keyVal
  have hm := magVal_strictMono
  split <;> split
  · exact neg_lt_neg (hm (by omega))
  · have h1 : magVal 0 < magVal a.natAbs := hm (by omega)
    have h2 := magVal_nonneg b.natAbs
    have h3 := magVal_zero
    linarith
  · omega
  · exact hm (by omega)

/-- The order key of a finite pattern stands for its number. -/
theorem numeric_key {v : F64} (h : isFinite v = true) : (numeric v : ℝ) = keyVal (orderKey v) := by
  rw [numeric_eq h]
  unfold keyVal orderKey
  simp only
  generalize (BitVec.extractLsb' 0 63 v).toNat = n
  cases v.msb with
  | false =>
    simp [signOf]
  | true =>
    by_cases h0 : n = 0
    · subst h0; simp [signOf, magVal_zero]
    · have : -(n : Int) < 0 := by omega
      simp [signOf, Nat.pos_of_ne_zero h0]

/-! ### Exact values -/

/-- A number that the format holds is packed as it stands. -/
theorem pack_exact {prec inf m mant k : Nat} {q qmin : Int} (hp : 1 ≤ prec)
    (hv : (m : ℝ) * (2 : ℝ) ^ q = mant * (2 : ℝ) ^ (qmin + (k : Int))) (h1 : mant < 2 ^ prec)
    (h2 : k = 0 ∨ 2 ^ (prec - 1) ≤ mant) (hinf : k * 2 ^ (prec - 1) + mant ≤ inf) :
    packMagnitude prec qmin inf m q false = k * 2 ^ (prec - 1) + mant := by
  have hq := two_zpow_pos q
  have ht := two_zpow_pos (qmin + (k : Int))
  unfold packMagnitude
  by_cases hm : m = 0
  · subst hm
    have : (mant : ℝ) = 0 := by
      have : (mant : ℝ) * (2 : ℝ) ^ (qmin + (k : Int)) = 0 := by rw [← hv]; simp
      exact (mul_eq_zero.mp this).resolve_right ht.ne'
    have hm0 : mant = 0 := by exact_mod_cast this
    have hk : k = 0 := by
      rcases h2 with h | h
      · exact h
      · have : 0 < 2 ^ (prec - 1) := by positivity
        omega
    rw [if_pos rfl, hk, hm0]
    simp
  · have hmant : mant ≠ 0 := by
      rintro rfl
      have : (m : ℝ) * (2 : ℝ) ^ q = 0 := by rw [hv]; simp
      have := (mul_eq_zero.mp this).resolve_right hq.ne'
      exact hm (by exact_mod_cast this)
    rw [if_neg hm]
    simp only
    have a1 : (2 : ℝ) ^ (Nat.log2 m) ≤ m := by exact_mod_cast Nat.log2_self_le hm
    have a2 : (m : ℝ) < (2 : ℝ) ^ (Nat.log2 m + 1) := by exact_mod_cast Nat.lt_log2_self
    have b1 : (2 : ℝ) ^ (Nat.log2 mant) ≤ mant := by exact_mod_cast Nat.log2_self_le hmant
    have b2 : (mant : ℝ) < (2 : ℝ) ^ (Nat.log2 mant + 1) := by exact_mod_cast Nat.lt_log2_self
    have hM : Nat.log2 mant < prec := by
      have : 2 ^ Nat.log2 mant < 2 ^ prec := lt_of_le_of_lt (Nat.log2_self_le hmant) h1
      exact (Nat.pow_lt_pow_iff_right (by norm_num)).mp this
    have hM2 : k = 0 ∨ Nat.log2 mant = prec - 1 := by
      refine h2.imp id fun h => ?_
      have : 2 ^ (prec - 1) < 2 ^ (Nat.log2 mant + 1) := lt_of_le_of_lt h Nat.lt_log2_self
      have := (Nat.pow_lt_pow_iff_right (by norm_num)).mp this
      omega
    set L := Nat.log2 m
    set M := Nat.log2 mant
    have hlog : (L : Int) + q = M + (qmin + k) := by
      have z : ∀ (n : Nat) (i : Int), (2 : ℝ) ^ ((n : Int) + i) = (2 : ℝ) ^ n * (2 : ℝ) ^ i := fun n i => by
        rw [zpow_add₀ (by norm_num), zpow_natCast]
      have c1 : (2 : ℝ) ^ ((L : Int) + q) < (2 : ℝ) ^ (((M + 1 : Nat) : Int) + (qmin + k)) := by
        rw [z, z]
        calc (2 : ℝ) ^ L * 2 ^ q ≤ m * 2 ^ q := mul_le_mul_of_nonneg_right a1 hq.le
          _ = mant * (2 : ℝ) ^ (qmin + (k : Int)) := hv
          _ < _ := mul_lt_mul_of_pos_right b2 ht
      have c2 : (2 : ℝ) ^ ((M : Int) + (qmin + k)) < (2 : ℝ) ^ (((L + 1 : Nat) : Int) + q) := by
        rw [z, z]
        calc (2 : ℝ) ^ M * 2 ^ (qmin + (k : Int)) ≤ mant * 2 ^ (qmin + (k : Int)) := mul_le_mul_of_nonneg_right b1 ht.le
          _ = m * 2 ^ q := hv.symm
          _ < _ := mul_lt_mul_of_pos_right a2 hq
      have := (zpow_lt_zpow_iff_right₀ (by norm_num : (1 : ℝ) < 2)).mp c1
      have := (zpow_lt_zpow_iff_right₀ (by norm_num : (1 : ℝ) < 2)).mp c2
      omega
    have htt : max (q + ((L + 1 : Nat) : Int) - (prec : Int)) qmin = qmin + k := by
      rcases hM2 with h | h <;> omega
    rw [htt]
    have hk : (qmin + (k : Int) - qmin).toNat = k := by omega
    rw [hk]
    suffices hs : (if qmin + (k : Int) ≤ q then m <<< (q - (qmin + (k : Int))).toNat else roundShift m (qmin + (k : Int) - q).toNat false) = mant by
      rw [hs]; exact Nat.min_eq_right hinf
    split
    · rename_i hle
      obtain ⟨d, hd⟩ : ∃ d : Nat, q = (qmin + k) + (d : Int) := ⟨(q - (qmin + k)).toNat, by omega⟩
      have : (q - (qmin + (k : Int))).toNat = d := by omega
      rw [this, Nat.shiftLeft_eq]
      rw [hd, zpow_add₀ (by norm_num), zpow_natCast, mul_comm ((2 : ℝ) ^ (qmin + (k : Int))), ← mul_assoc] at hv
      have := mul_right_cancel₀ ht.ne' hv
      exact_mod_cast this
    · rename_i hle
      obtain ⟨j, hj⟩ : ∃ j : Nat, qmin + (k : Int) = q + ((j + 1 : Nat) : Int) := ⟨(qmin + (k : Int) - q).toNat - 1, by omega⟩
      have : (qmin + (k : Int) - q).toNat = j + 1 := by omega
      rw [this]
      rw [hj, zpow_add₀ (by norm_num), zpow_natCast, mul_comm ((2 : ℝ) ^ q), ← mul_assoc] at hv
      have := mul_right_cancel₀ hq.ne' hv
      have hmm : m = mant * 2 ^ (j + 1) := by exact_mod_cast this
      have h0 : m % 2 ^ (j + 1) = 0 := by rw [hmm]; exact Nat.mul_mod_left _ _
      have hd : m >>> (j + 1) = mant := by
        rw [Nat.shiftRight_eq_div_pow, hmm]; exact Nat.mul_div_cancel _ (by positivity)
      have hpos : 2 ^ j ≠ 0 := by positivity
      simp only [roundShift, h0, hd]
      have e2 : (0 : Nat) ≠ 2 ^ j := fun h => hpos h.symm
      simp [e2]

/-- A significand of at most 53 bits at a normal exponent is the value of some magnitude. -/
theorem scaled_magVal {n : Nat} {i : Int} (h : n < 2 ^ 53) (hi : -1022 ≤ i) : ∃ p, magVal p = n * (2 : ℝ) ^ i := by
  by_cases h0 : n = 0
  · exact ⟨0, by rw [h0, magVal_zero]; simp⟩
  · have hlow := Nat.log2_self_le h0
    have hhigh := Nat.lt_log2_self (n := n)
    set L := Nat.log2 n with hL
    have hLl : L < 53 := by
      have : 2 ^ L < 2 ^ 53 := by omega
      exact (Nat.pow_lt_pow_iff_right (by norm_num)).mp this
    obtain ⟨d, hd⟩ : ∃ d, d + L = 52 := ⟨52 - L, by omega⟩
    obtain ⟨k, hk⟩ : ∃ k : Nat, -1074 + (k : Int) = i - d := ⟨(i - d + 1074).toNat, by omega⟩
    refine ⟨k * 2 ^ 52 + n * 2 ^ d, ?_⟩
    rw [magVal_pack, hk, zpow_sub₀ (by norm_num), zpow_natCast]
    · push_cast
      field_simp
    · calc n * 2 ^ d ≤ 2 ^ (L + 1) * 2 ^ d := Nat.mul_le_mul_right _ hhigh.le
        _ = 2 ^ 53 := by rw [← pow_add]; congr 1; omega
    · right
      calc 2 ^ 52 = 2 ^ L * 2 ^ d := by rw [← pow_add]; congr 1; omega
        _ ≤ n * 2 ^ d := Nat.mul_le_mul_right _ hlow

/-- A magnitude below infinity is exact. -/
theorem pack64_exact {m : Nat} {q : Int} {p : Nat} (hp : p < inf64) (h : (m : ℝ) * (2 : ℝ) ^ q = magVal p) :
    packMagnitude 53 (-1074) inf64 m q false = p := by
  obtain ⟨k, mant, h1, h2, rfl⟩ := pack_split p
  by_cases hm : mant < 2 ^ 53
  · exact pack_exact (by norm_num) (by rw [h, magVal_pack h1 h2]) hm h2 hp.le
  · obtain rfl : mant = 2 ^ 53 := by omega
    have e : k * 2 ^ 52 + 2 ^ 53 = (k + 1) * 2 ^ 52 + 2 ^ 52 := by omega
    rw [e] at hp h ⊢
    exact pack_exact (prec := 53) (by norm_num) (by rw [h, magVal_pack (by norm_num) (by norm_num)]) (by norm_num) (.inr (by norm_num)) hp.le

/-- An integer converts to its nearest binary64 value (R402). -/
theorem int_rounded (i : Int) : RoundedTo i (cvtIntToF64 i) := by
  have := round64_rounded (decide (i < 0)) (m := i.natAbs) (q := 0) (sticky := false) (x := i.natAbs) (by simp) nofun
  unfold cvtIntToF64
  convert this using 1
  have : ((i.natAbs : Nat) : ℝ) = |(i : ℝ)| := by rw [Nat.cast_natAbs]; simp
  rw [this, zpow_zero, mul_one]
  by_cases h : i < 0
  · have h' : (i : ℝ) < 0 := by exact_mod_cast h
    simp [h, signOf, abs_of_neg h']
  · have h' : 0 ≤ (i : ℝ) := by exact_mod_cast not_lt.mp h
    simp [h, signOf, abs_of_nonneg h']

theorem value64_inf (n : Bool) : value64 (join64 n inf64) = .inf n := by
  cases n <;> decide

end Sys2Proof.Laws
end

