-- ==== Sys2Proof/Laws/Step.lean ====
section
/-! SUPPORT. What a step can do, said once: `step_cases`; and what a handler leaves. -/

namespace Sys2Proof.Laws

open Sys2Proof.Machine Sys2Proof.Claims

/-- The ways a step answers a next state: a halted machine idles; a decode fault is delivered; or the decoded
instruction executed. -/
inductive Stepped (s t : State) : Prop where
  | idle (h : s.halted = true) (ht : t = s)
  | fetchFault (hrun : s.running) (f : Fault) (hf : fetch s = .fault f) (ht : t = s.deliver f)
  | ran (hrun : s.running) (c : Code) (next : Word) (hc : fetch s = .code c next)
      (h : Executed c.instr (s.enter c next) t)

theorem step_cases {s t : State} (h : step s = .next t) : Stepped s t := by
  unfold step at h
  split at h
  · cases h
  · rename_i hterm
    split at h
    · rename_i hh
      cases h
      exact .idle hh rfl
    · rename_i hh
      have hrun : s.running := ⟨hterm, by simpa using hh⟩
      split at h
      · rename_i c next hc
        obtain ⟨u, hu, hex⟩ := exec_answers c.instr (s.enter c next)
        rw [hu] at h
        cases h
        exact .ran hrun c next hc hex
      · rename_i f hf
        cases h
        exact .fetchFault hrun f hf rfl
      · cases h

/-- A running machine's step is `exec` of what was decoded. -/
theorem step_of_code {s : State} {c : Code} {next : Word} (hrun : s.running) (h : fetch s = .code c next) :
    step s = exec c.instr (s.enter c next) := by
  unfold step
  rw [hrun.1]
  simp only [hrun.2, Bool.false_eq_true, if_false, h]

/-- A running machine's decode fault is delivered. -/
theorem step_of_fault {s : State} {f : Fault} (hrun : s.running) (h : fetch s = .fault f) :
    step s = .next (s.deliver f) := by
  unfold step
  rw [hrun.1]
  simp only [hrun.2, Bool.false_eq_true, if_false, h]

/-! ### Delivery -/

/-- Without an exception handler a fault ends in the terminal state, and nothing else changes. -/
theorem deliver_terminal {s : State} (f : Fault) (h : s.config.excHandler = false) :
    s.deliver f = { s.clearDecode with terminal := some f } := by
  unfold State.deliver
  simp [State.clearDecode, h]

/-- Delivery ends in the terminal state or in a handler's. -/
theorem deliver_cases (s : State) (f : Fault) :
    s.deliver f = { s.clearDecode with terminal := some f } ∨
      s.config.excHandler = true ∧ ∃ h : HostImage, s.deliver f = s.clearDecode.applyHost h := by
  unfold State.deliver
  simp only
  split
  · rename_i h
    exact .inr ⟨by simpa [State.clearDecode] using (by simpa using h : _ ∧ _).1, _, rfl⟩
  · exact .inl rfl

/-- A software interrupt ends in its handler's state, or in the terminal state. -/
theorem interrupt_cases (s : State) (n : Byte) :
    s.interrupt n = { s.clearDecode with terminal := some (.unhandledInterrupt n s.eip) } ∨
      s.config.intHandler = true ∧
        ∃ h : HostImage, s.interrupt n = (({ s with eip := s.next } : State).applyHost h).retire := by
  unfold State.interrupt
  split
  · rename_i h
    exact .inr ⟨h, _, rfl⟩
  · refine .inl ?_
    unfold State.deliver
    simp [Fault.goesToHandler]

theorem applyHost_memOk (s : State) (h : HostImage) : (s.applyHost h).memOk :=
  memory_ok h _

/-- What a handler leaves, said whole (R520 to R523; log 5). -/
theorem applyHost_left (s : State) (h : HostImage) (hs : s.idle) : HandlerLeft s h (s.applyHost h) :=
  ⟨rfl, rfl, rfl, rfl, rfl, withTop_top _ _, fun _ hk => getLsbD_withTop _ _ hk, rfl, rfl, rfl, rfl, hs, rfl, rfl, rfl⟩

theorem applyHost_topSynced (s : State) (h : HostImage) : (s.applyHost h).topSynced :=
  withTop_top _ _

end Sys2Proof.Laws
end

