-- ==== Sys2Proof/Laws/Strings.lean ====
section
/-! SUPPORT. What the bodies of the string instructions and their loop do, each said once. -/

namespace Sys2Proof.Laws

open Sys2Proof.Machine Sys2Proof.Claims

/-! ### Pointer steps -/

/-- `Adv(i)` on the register it moves (R380). -/
theorem gpr_advance (k : Nat) (s : State) (i j : Reg) :
    (advance k s i).gpr j = if j = i then s.gpr i + pointerStep s k else s.gpr j := by
  rw [advance, gpr_setGpr]

/-- `Adv(i)` as an integer step modulo 2^32 (R380). -/
theorem pointerStep_eq (s t : State) (k : Nat) (i : Reg) (hf : t.flags = s.flags) :
    s.gpr i + pointerStep t k = advanced s k i := by
  have hd : t.df = s.df := by rw [State.df, hf]; rfl
  rw [pointerStep, advanced, hd]
  cases s.df
  · rw [if_neg (by simp), if_neg (by simp), BitVec.ofNat_add, BitVec.ofNat_toNat, BitVec.setWidth_eq]
  · rw [if_pos rfl, if_pos rfl, Int.sub_eq_add_neg, BitVec.ofInt_add, BitVec.ofInt_neg, BitVec.ofInt_natCast,
      BitVec.ofInt_natCast, BitVec.ofNat_toNat, BitVec.setWidth_eq]

/-- The pointer step looks at DF alone. -/
theorem pointerStep_congr {s t : State} (k : Nat) (h : t.df = s.df) : pointerStep t k = pointerStep s k := by
  rw [pointerStep, pointerStep, h]

/-- DF is not among the flags of an arithmetic result. -/
theorem df_setAlu {w : Nat} (s : State) (r : AluResult w) : (s.setAlu r).df = s.df := by
  have h := (flagsOf_setAlu (s := s) (t := s) r rfl).2.2.2.2 10 (by decide)
  exact h

/-! ### Bodies -/

/-- What is left of a state by a body: registers, flags and memory changed. -/
def BodyKept (s t : State) : Prop := t = { s with x := t.x, flags := t.flags, mem := t.mem }

/-- MOVS (R382). -/
theorem movsBody_fits {w : Nat} {s : State} (h1 : fits s (sourceAddr s) (w / 8) = true)
    (h2 : fits s (s.gpr 7) (w / 8) = true) :
    ∃ t : State, movsBody w s = .ok t ∧
      MemStored s t (s.gpr 7) (w / 8) (BitVec.ofNat w (bytesAt s (sourceAddr s) (w / 8))).toNat ∧
      t.gpr 6 = advanced s (w / 8) 6 ∧ t.gpr 7 = advanced s (w / 8) 7 ∧ RegsSameBut [6, 7] s t ∧
      t.flags = s.flags ∧ BodyKept s t := by
  obtain ⟨u, e1, e2, e3⟩ := memWrite_fits (BitVec.ofNat w (bytesAt s (sourceAddr s) (w / 8))) h2
  have hx : u.x = s.x := by rw [e3]
  have hf : u.flags = s.flags := by rw [e3]
  have hd : pointerStep (advance (w / 8) u 6) (w / 8) = pointerStep u (w / 8) := rfl
  refine ⟨advance (w / 8) (advance (w / 8) u 6) 7, ?_, MemStored.congr e2 rfl, ?_, ?_, fun i hi => ?_, hf, ?_⟩
  · have hr := memRead_fits (w := w) h1
    show (s.memRead w (sourceAddr s) >>= _) = _
    rw [hr]
    show (s.memWrite (s.gpr 7) _ >>= _) = _
    rw [e1]
    rfl
  · rw [gpr_advance, if_neg (by decide), gpr_advance, if_pos rfl, gpr_of_x hx]
    exact pointerStep_eq s u _ 6 hf
  · rw [gpr_advance, if_pos rfl, gpr_advance, if_neg (by decide), gpr_of_x hx]
    exact pointerStep_eq s u _ 7 hf
  · simp only [List.mem_cons, List.not_mem_nil, or_false, not_or] at hi
    rw [gpr_advance, if_neg hi.2, gpr_advance, if_neg hi.1, gpr_of_x hx]
  · show BodyKept s _
    unfold BodyKept
    conv_lhs => rw [e3]
    conv_rhs => rw [e3]
    rfl

/-- STOS (R383). -/
theorem stosBody_fits {w : Nat} {acc : Access w} (hacc : Faithful acc) {s : State}
    (h : fits s (s.gpr 7) (w / 8) = true) :
    ∃ t : State, stosBody acc s = .ok t ∧ MemStored s t (s.gpr 7) (w / 8) (regVal w s 0).toNat ∧
      t.gpr 7 = advanced s (w / 8) 7 ∧ RegsSameBut [7] s t ∧ t.flags = s.flags ∧ BodyKept s t := by
  obtain ⟨u, e1, e2, e3⟩ := memWrite_fits (regVal w s 0) h
  have hx : u.x = s.x := by rw [e3]
  have hf : u.flags = s.flags := by rw [e3]
  refine ⟨advance (w / 8) u 7, ?_, MemStored.congr e2 rfl, ?_, fun i hi => ?_, hf, ?_⟩
  · show (s.memWrite (s.gpr 7) (acc.reg s 0) >>= _) = _
    rw [hacc.reg, e1]
    rfl
  · rw [gpr_advance, if_pos rfl, gpr_of_x hx]
    exact pointerStep_eq s u _ 7 hf
  · rw [gpr_advance, if_neg (by simpa using hi), gpr_of_x hx]
  · unfold BodyKept
    conv_lhs => rw [e3]
    conv_rhs => rw [e3]
    rfl

/-- LODS (R384). -/
theorem lodsBody_fits {w : Nat} {acc : Access w} {s : State} (h : fits s (sourceAddr s) (w / 8) = true) :
    lodsBody acc s =
      .ok (advance (w / 8) (acc.setReg s 0 (BitVec.ofNat w (bytesAt s (sourceAddr s) (w / 8)))) 6) := by
  show (s.memRead w (sourceAddr s) >>= _) = _
  rw [memRead_fits h]
  rfl

/-- SCAS (R385). -/
theorem scasBody_fits {w : Nat} {acc : Access w} (hacc : Faithful acc) {s : State}
    (h : fits s (s.gpr 7) (w / 8) = true) :
    scasBody acc s =
      .ok (advance (w / 8)
        (s.setAlu (subResult (regVal w s 0) (BitVec.ofNat w (bytesAt s (s.gpr 7) (w / 8))))) 7) := by
  show (s.memRead w (s.gpr 7) >>= _) = _
  rw [memRead_fits h, ← hacc.reg]
  rfl

/-- CMPS (R386). -/
theorem cmpsBody_fits {w : Nat} {s : State} (h1 : fits s (sourceAddr s) (w / 8) = true)
    (h2 : fits s (s.gpr 7) (w / 8) = true) :
    cmpsBody w s =
      .ok (advance (w / 8) (advance (w / 8)
        (s.setAlu (subResult (BitVec.ofNat w (bytesAt s (sourceAddr s) (w / 8)))
          (BitVec.ofNat w (bytesAt s (s.gpr 7) (w / 8))))) 6) 7) := by
  show (s.memRead w (sourceAddr s) >>= _) = _
  rw [memRead_fits h1]
  show (s.memRead w (s.gpr 7) >>= _) = _
  rw [memRead_fits h2]
  rfl

/-! ### The loop -/

/-- The loop with no iteration left (R381). -/
theorem repLoop_zero (body : State → Except Fault State) (stop : State → Bool) (s : State) :
    repLoop body stop 0 s = (s, none) := rfl

/-- One iteration of the loop (R381). -/
theorem repLoop_ok {body : State → Except Fault State} (stop : State → Bool) (n : Nat) {s t : State}
    (h : body s = .ok t) :
    repLoop body stop (n + 1) s =
      if stop (t.setGpr 1 (t.gpr 1 - 1)) then (t.setGpr 1 (t.gpr 1 - 1), none)
      else repLoop body stop n (t.setGpr 1 (t.gpr 1 - 1)) := by
  rw [repLoop, h]

/-- A fault in an iteration ends the loop (R381, R511). -/
theorem repLoop_error {body : State → Except Fault State} (stop : State → Bool) (n : Nat) {s : State} {f : Fault}
    (h : body s = .error f) : repLoop body stop (n + 1) s = (s, some f) := by
  rw [repLoop, h]

end Sys2Proof.Laws
end

