-- ==== Sys2Proof/Laws/Word.lean ====
section
/-! SUPPORT. Facts about words: sums and differences of exact integers, and signed overflow by sign bits. -/

namespace Sys2Proof.Laws

theorem ofInt_sub (w : Nat) (x y : Int) : BitVec.ofInt w (x - y) = BitVec.ofInt w x - BitVec.ofInt w y := by
  rw [Int.sub_eq_add_neg, BitVec.ofInt_add, BitVec.ofInt_neg, BitVec.sub_eq_add_neg]

theorem ofInt_toNat {w : Nat} (a : BitVec w) : BitVec.ofInt w (a.toNat : Int) = a := by
  rw [BitVec.ofInt_natCast, BitVec.ofNat_toNat, BitVec.setWidth_eq]

theorem ofNat_bool (w : Nat) (c : Bool) : BitVec.ofNat w c.toNat = (BitVec.ofBool c).setWidth w := by
  apply BitVec.eq_of_toNat_eq
  cases c <;> simp

theorem ofNat_add_toNat {w : Nat} (a b : BitVec w) : BitVec.ofNat w (a.toNat + b.toNat) = a + b := by
  apply BitVec.eq_of_toNat_eq
  simp

theorem ofInt_sub_toNat {w : Nat} (a b : BitVec w) : BitVec.ofInt w ((a.toNat : Int) - b.toNat) = a - b := by
  rw [ofInt_sub, ofInt_toNat, ofInt_toNat]

theorem ofNat_add_carry {w : Nat} (a b : BitVec w) (c : Bool) :
    BitVec.ofNat w (a.toNat + b.toNat + c.toNat) = a + b + (BitVec.ofBool c).setWidth w := by
  rw [BitVec.ofNat_add, ofNat_add_toNat, ofNat_bool]

theorem ofInt_sub_borrow {w : Nat} (a b : BitVec w) (c : Bool) :
    BitVec.ofInt w ((a.toNat : Int) - b.toNat - c.toNat) = a - b - (BitVec.ofBool c).setWidth w := by
  rw [ofInt_sub, ofInt_sub_toNat, BitVec.ofInt_natCast, ofNat_bool]

/-- An exact value between the doubled bounds, by the sign of its word: it is out of range iff the word's sign
differs from its own. -/
theorem msb_ofInt {w : Nat} (hw : 0 < w) (x : Int) (h1 : -(2 ^ w : Int) ≤ x) (h2 : x < (2 ^ w : Int)) :
    (BitVec.ofInt w x).msb = (decide (-(2 ^ (w - 1) : Int) ≤ x ∧ x < 0) || decide ((2 ^ (w - 1) : Int) ≤ x)) := by
  obtain ⟨v, rfl⟩ : ∃ v, w = v + 1 := ⟨w - 1, by omega⟩
  have e : (2 : Int) ^ (v + 1) = 2 * 2 ^ v := by ring
  have eN : ((2 ^ (v + 1) : Nat) : Int) = 2 * 2 ^ v := by push_cast; ring
  simp only [Nat.add_sub_cancel]
  have hp : (0 : Int) < 2 ^ v := by positivity
  rw [e] at h1 h2
  rw [BitVec.msb_eq_toInt, BitVec.toInt_ofInt, ← Bool.decide_or, decide_eq_decide]
  by_cases a : x < -2 ^ v
  · rw [← Int.add_bmod_right, Int.bmod_eq_of_le] <;> omega
  · by_cases b : x < 2 ^ v
    · rw [Int.bmod_eq_of_le] <;> omega
    · have : x.bmod (2 ^ (v + 1)) = (x - (2 ^ (v + 1) : Nat)).bmod (2 ^ (v + 1)) := by
        rw [← Int.add_bmod_right (x - _), Int.sub_add_cancel]
      rw [this, Int.bmod_eq_of_le] <;> omega

/-- Signed overflow of a sum with carry, by sign bits (R240, R243). -/
theorem add_overflow_iff {w : Nat} (hw : 0 < w) (a b : BitVec w) (c : Bool) :
    decide (a.msb = b.msb ∧ (a + b + (BitVec.ofBool c).setWidth w).msb ≠ a.msb) =
      decide (a.toInt + b.toInt + c.toNat < -(2 ^ (w - 1) : Int) ∨ (2 ^ (w - 1) : Int) ≤ a.toInt + b.toInt + c.toNat) := by
  have e : (2 : Int) ^ w = 2 * 2 ^ (w - 1) := by
    conv_lhs => rw [show w = w - 1 + 1 by omega]
    ring
  have ha := @BitVec.toInt_lt w a
  have hb := @BitVec.toInt_lt w b
  have la := BitVec.le_toInt a
  have lb := BitVec.le_toInt b
  have hc : c.toNat ≤ 1 := by cases c <;> simp
  have hs : a + b + (BitVec.ofBool c).setWidth w = BitVec.ofInt w (a.toInt + b.toInt + c.toNat) := by
    rw [BitVec.ofInt_add, BitVec.ofInt_add, BitVec.ofInt_toInt, BitVec.ofInt_toInt, BitVec.ofInt_natCast, ofNat_bool]
  have hm := msb_ofInt hw (a.toInt + b.toInt + c.toNat) (by omega) (by omega)
  rw [hs, hm, BitVec.msb_eq_toInt, BitVec.msb_eq_toInt, ← Bool.decide_or, decide_eq_decide]
  simp only [decide_eq_decide, ne_eq]
  omega

/-- Signed overflow of a difference with borrow, by sign bits (R241, R243). -/
theorem sub_overflow_iff {w : Nat} (hw : 0 < w) (a b : BitVec w) (c : Bool) :
    decide (a.msb ≠ b.msb ∧ (a - b - (BitVec.ofBool c).setWidth w).msb ≠ a.msb) =
      decide (a.toInt - b.toInt - c.toNat < -(2 ^ (w - 1) : Int) ∨ (2 ^ (w - 1) : Int) ≤ a.toInt - b.toInt - c.toNat) := by
  have e : (2 : Int) ^ w = 2 * 2 ^ (w - 1) := by
    conv_lhs => rw [show w = w - 1 + 1 by omega]
    ring
  have ha := @BitVec.toInt_lt w a
  have hb := @BitVec.toInt_lt w b
  have la := BitVec.le_toInt a
  have lb := BitVec.le_toInt b
  have hc : c.toNat ≤ 1 := by cases c <;> simp
  have hs : a - b - (BitVec.ofBool c).setWidth w = BitVec.ofInt w (a.toInt - b.toInt - c.toNat) := by
    rw [ofInt_sub, ofInt_sub, BitVec.ofInt_toInt, BitVec.ofInt_toInt, BitVec.ofInt_natCast, ofNat_bool]
  have hm := msb_ofInt hw (a.toInt - b.toInt - c.toNat) (by omega) (by omega)
  rw [hs, hm, BitVec.msb_eq_toInt, BitVec.msb_eq_toInt, ← Bool.decide_or, decide_eq_decide]
  simp only [decide_eq_decide, ne_eq]
  omega

/-- The carry out of a sum: it wrapped below either operand (R240). -/
theorem add_carry_iff {w : Nat} (a b : BitVec w) :
    ((a + b).toNat < a.toNat ∨ (a + b).toNat < b.toNat) ↔ 2 ^ w ≤ a.toNat + b.toNat := by
  have h1 := a.isLt
  have h2 := b.isLt
  rw [BitVec.toNat_add]
  by_cases h : 2 ^ w ≤ a.toNat + b.toNat
  · rw [Nat.mod_eq_sub_mod h, Nat.mod_eq_of_lt (by omega)]
    omega
  · rw [Nat.mod_eq_of_lt (by omega)]
    omega

end Sys2Proof.Laws
end

