-- ==== Sys2Proof/Tests/Slice0.lean ====
section
/-! SUPPORT. Tests: single steps from the vectors of spec/95_test_vectors.md (each theorem's docstring names its
vector), decoded bytes written out from spec/30_encoding.md, ill-formed records that each check of WellFormed refuses,
and a witness for the hypotheses of every statement. -/

namespace Sys2Proof.Tests

open Sys2Proof.Machine Sys2Proof.Claims

/-! ### Helpers -/

/-- The conventions of spec/95_test_vectors.md: the reset state with MEM_SIZE = 0x10000 and what the host wrote. -/
def given (eip : Word) (regs : List (Reg × Word)) (flags : BitVec 32) (mem : List (Nat × List Byte)) : State :=
  let s : State :=
    { State.reset with eip := eip, flags := flags, config := { State.reset.config with memSize := 0x10000 } }
  let s := regs.foldl (fun s p => s.setGpr p.1 p.2) s
  mem.foldl (fun s p => placeBytes s (BitVec.ofNat 32 p.1) p.2) s

/-- The same with `CARRY_IN_RULE = LiteralTwoOperand`. -/
def literal (s : State) : State := { s with config := { s.config with carryIn := .literalTwoOperand } }

/-- The same with the x87 fields written. -/
def fpu (top : BitVec 3) (status control tag : Half) (slots : List (BitVec 3 × F64)) (s : State) : State :=
  slots.foldl (fun s p => s.setSlot p.1 p.2)
    { s with fpuTop := top, fpuStatus := status, fpuControl := control, fpuTag := tag }

/-- The bytes of memory at consecutive addresses. -/
def bytes (t : State) (a : Nat) (n : Nat) : List Byte := (List.range n).map fun k => t.mem.read (a + k)

/-- The step of the instruction whose bytes stand at `eip` completes, and its state passes the check. -/
def completes (s : State) (code : List Byte) (check : State → Bool) : Bool :=
  match step (placeBytes s s.eip code) with
  | .next t => check t && (t.instrCount == 1 && t.terminal.isNone)
  | _ => false

/-- The step ends in the terminal state of the fault, with every other field as before. -/
def faults (s : State) (code : List Byte) (f : Fault) : Bool :=
  let s := placeBytes s s.eip code
  match step s with
  | .next t => decide (t = { s with terminal := some f })
  | _ => false

/-! ### Single steps -/
/-- E1. -/
theorem test_ea_base :
    completes (given 0x1000 [(3, 0x2000)] 0x0 [(0x2000, [0x44, 0x33, 0x22, 0x11])]) [0x8B, 0x03] (fun t =>
      t.gpr 0 == 0x11223344 && t.eip == 0x1002) = true := by
  decide

/-- E2. -/
theorem test_ea_sib_no_index :
    completes (given 0x1000 [] 0x0 [(0x2000, [0x55])]) [0x8B, 0x04, 0x25, 0x00, 0x20, 0x00, 0x00] (fun t =>
      t.gpr 0 == 0x55 && t.eip == 0x1007) = true := by
  decide

/-- E3. -/
theorem test_ea_sib_disp8 :
    completes (given 0x1000 [(4, 0x1100)] 0x0 [(0x10FC, [0x09])]) [0x8B, 0x44, 0x24, 0xFC] (fun t =>
      t.gpr 0 == 0x9 && t.eip == 0x1004) = true := by
  decide

/-- E4. -/
theorem test_ea_ebp_disp8 :
    completes (given 0x1000 [(5, 0x2000)] 0x0 [(0x2008, [0x03])]) [0x8B, 0x45, 0x08] (fun t =>
      t.gpr 0 == 0x3 && t.eip == 0x1003) = true := by
  decide

/-- E5. -/
theorem test_ea_disp32 :
    completes (given 0x1000 [] 0x0 [(0x5, [0xAB])]) [0x8B, 0x05, 0x05, 0x00, 0x00, 0x00] (fun t =>
      t.gpr 0 == 0xAB && t.eip == 0x1006) = true := by
  decide

/-- E6. -/
theorem test_ea_wraps :
    completes (given 0x1000 [(0, 0xFFFFFFFF)] 0x0 [(0x0, [0x77])]) [0x8B, 0x40, 0x01] (fun t =>
      t.gpr 0 == 0x77 && t.eip == 0x1003) = true := by
  decide

/-- E7. -/
theorem test_opsize_repeated :
    completes (given 0x1000 [(0, 0x12345678), (3, 0xFFFFFFFF)] 0x0 []) [0x66, 0x66, 0x89, 0xC3] (fun t =>
      t.gpr 3 == 0xFFFF5678 && t.eip == 0x1004) = true := by
  decide

/-- E10. -/
theorem test_rep_ret :
    completes (given 0x1000 [(4, 0x8000)] 0x0 [(0x8000, [0x00, 0x04])]) [0xF3, 0xC3] (fun t =>
      t.gpr 4 == 0x8004 && t.eip == 0x400) = true := by
  decide

/-- E11. -/
theorem test_lock_inc :
    completes (given 0x1000 [(0, 0x5)] 0x0 []) [0xF0, 0x40] (fun t =>
      t.gpr 0 == 0x6 && t.eip == 0x1002) = true := by
  decide

/-- E12. -/
theorem test_addrsize_ignored :
    completes (given 0x1000 [(0, 0x7)] 0x0 [(0x7, [0x01])]) [0x67, 0x8B, 0x00] (fun t =>
      t.gpr 0 == 0x1 && t.eip == 0x1003) = true := by
  decide

/-- M1. -/
theorem test_mov_ah_al :
    completes (given 0x1000 [(0, 0xAB)] 0x0 []) [0x88, 0xC4] (fun t =>
      t.gpr 0 == 0xABAB && t.eip == 0x1002) = true := by
  decide

/-- M2. -/
theorem test_mov_ax_imm :
    completes (given 0x1000 [(0, 0xFFFFFFFF)] 0x0 []) [0x66, 0xB8, 0x34, 0x12] (fun t =>
      t.gpr 0 == 0xFFFF1234 && t.eip == 0x1004) = true := by
  decide

/-- M3. -/
theorem test_mov_dh_imm :
    completes (given 0x1000 [(2, 0xFFFFFFFF)] 0x0 []) [0xB6, 0x12] (fun t =>
      t.gpr 2 == 0xFFFF12FF && t.eip == 0x1002) = true := by
  decide

/-- M4. -/
theorem test_mov_m8_imm :
    completes (given 0x1000 [] 0x0 []) [0xC6, 0x05, 0x00, 0x20, 0x00, 0x00, 0x7F] (fun t =>
      bytes t 0x2000 1 == [0x7F] && t.eip == 0x1007) = true := by
  decide

/-- M5. -/
theorem test_mov_m32_imm :
    completes (given 0x1000 [] 0x0 []) [0xC7, 0x05, 0x00, 0x20, 0x00, 0x00, 0x78, 0x56, 0x34, 0x12] (fun t =>
      bytes t 0x2000 4 == [0x78, 0x56, 0x34, 0x12] && t.eip == 0x100A) = true := by
  decide

/-- M6. -/
theorem test_mov_moffs :
    completes (given 0x1000 [(0, 0x11223344)] 0x0 []) [0xA3, 0x00, 0x20, 0x00, 0x00] (fun t =>
      bytes t 0x2000 4 == [0x44, 0x33, 0x22, 0x11] && t.eip == 0x1005) = true := by
  decide

/-- M8. -/
theorem test_movzx_r16 :
    completes (given 0x1000 [(3, 0x12348001)] 0x0 []) [0x0F, 0xB7, 0xC3] (fun t =>
      t.gpr 0 == 0x8001 && t.eip == 0x1003) = true := by
  decide

/-- M9. -/
theorem test_movsx_r16 :
    completes (given 0x1000 [(3, 0x12348001)] 0x0 []) [0x0F, 0xBF, 0xC3] (fun t =>
      t.gpr 0 == 0xFFFF8001 && t.eip == 0x1003) = true := by
  decide

/-- M10. -/
theorem test_movsx_r8 :
    completes (given 0x1000 [(0, 0xFF)] 0x0 []) [0x0F, 0xBE, 0xC0] (fun t =>
      t.gpr 0 == 0xFFFFFFFF && t.eip == 0x1003) = true := by
  decide

/-- M11. -/
theorem test_lea_wraps :
    completes (given 0x1000 [(0, 0xFFFFFFFF), (3, 0x2)] 0x0 []) [0x8D, 0x04, 0x18] (fun t =>
      t.gpr 0 == 0x1 && t.eip == 0x1003) = true := by
  decide

/-- M12. -/
theorem test_lea_scaled :
    completes (given 0x1000 [(3, 0x1000), (6, 0x3)] 0x0 []) [0x8D, 0x44, 0xB3, 0x08] (fun t =>
      t.gpr 0 == 0x1014 && t.eip == 0x1004) = true := by
  decide

/-- M13. -/
theorem test_les :
    completes (given 0x1000 [] 0x0 [(0x2000, [0x78, 0x56, 0x34, 0x12, 0x08, 0x00])]) [0xC4, 0x05, 0x00, 0x20, 0x00, 0x00] (fun t =>
      t.gpr 0 == 0x12345678 && t.eip == 0x1006) = true := by
  decide

/-- M15. -/
theorem test_cdq_negative :
    completes (given 0x1000 [(0, 0x80000000)] 0x0 []) [0x99] (fun t =>
      t.gpr 2 == 0xFFFFFFFF && t.eip == 0x1001) = true := by
  decide

/-- M16. -/
theorem test_cwde :
    completes (given 0x1000 [(0, 0x12348000)] 0x0 []) [0x98] (fun t =>
      t.gpr 0 == 0xFFFF8000 && t.eip == 0x1001) = true := by
  decide

/-- V2a. -/
theorem test_add_wraps :
    completes (given 0x1000 [(0, 0xFFFFFFFF)] 0x0 []) [0x83, 0xC0, 0x01] (fun t =>
      t.gpr 0 == 0x0 && t.cf == true && t.zf == true && t.sf == false && t.of == false && t.eip == 0x1003) = true := by
  decide

/-- A1. -/
theorem test_add_al_bl :
    completes (given 0x1000 [(0, 0x1122337F), (3, 0x1)] 0x0 []) [0x00, 0xD8] (fun t =>
      t.gpr 0 == 0x11223380 && t.cf == false && t.zf == false && t.sf == true && t.of == true && t.eip == 0x1002) = true := by
  decide

/-- A3. -/
theorem test_add_same :
    completes (given 0x1000 [(0, 0x80000000)] 0x0 []) [0x01, 0xC0] (fun t =>
      t.gpr 0 == 0x0 && t.cf == true && t.zf == true && t.sf == false && t.of == true && t.eip == 0x1002) = true := by
  decide

/-- A4. -/
theorem test_sub_al :
    completes (given 0x1000 [] 0x0 []) [0x2C, 0x01] (fun t =>
      t.gpr 0 == 0xFF && t.cf == true && t.zf == false && t.sf == true && t.of == false && t.eip == 0x1002) = true := by
  decide

/-- A5. -/
theorem test_sub_overflow :
    completes (given 0x1000 [(0, 0x80000000)] 0x0 []) [0x83, 0xE8, 0x01] (fun t =>
      t.gpr 0 == 0x7FFFFFFF && t.cf == false && t.zf == false && t.sf == false && t.of == true && t.eip == 0x1003) = true := by
  decide

/-- A7. -/
theorem test_adc_architectural :
    completes (given 0x1000 [(0, 0xFFFFFFFF), (3, 0xFFFFFFFF)] 0x1 []) [0x11, 0xD8] (fun t =>
      t.gpr 0 == 0xFFFFFFFF && t.cf == true && t.zf == false && t.sf == true && t.of == false && t.eip == 0x1002) = true := by
  decide

/-- A8. -/
theorem test_adc_literal :
    completes (literal (given 0x1000 [(0, 0xFFFFFFFF), (3, 0xFFFFFFFF)] 0x1 [])) [0x11, 0xD8] (fun t =>
      t.gpr 0 == 0xFFFFFFFF && t.cf == false && t.zf == false && t.sf == true && t.of == false && t.eip == 0x1002) = true := by
  decide

/-- A10. -/
theorem test_sbb_architectural :
    completes (given 0x1000 [(0, 0x5), (1, 0x5)] 0x1 []) [0x19, 0xC8] (fun t =>
      t.gpr 0 == 0xFFFFFFFF && t.cf == true && t.zf == false && t.sf == true && t.of == false && t.eip == 0x1002) = true := by
  decide

/-- A11. -/
theorem test_sbb_literal :
    completes (literal (given 0x1000 [(0, 0x5), (1, 0x5)] 0x1 [])) [0x19, 0xC8] (fun t =>
      t.gpr 0 == 0xFFFFFFFF && t.cf == false && t.zf == false && t.sf == true && t.of == false && t.eip == 0x1002) = true := by
  decide

/-- A13. -/
theorem test_cmp_al :
    completes (given 0x1000 [(0, 0x7F)] 0x0 []) [0x3C, 0x80] (fun t =>
      t.gpr 0 == 0x7F && t.cf == true && t.zf == false && t.sf == true && t.of == true && t.eip == 0x1002) = true := by
  decide

/-- A15. -/
theorem test_dec_m32 :
    completes (given 0x1000 [] 0x1 []) [0xFF, 0x0D, 0x00, 0x20, 0x00, 0x00] (fun t =>
      t.cf == true && t.zf == false && t.sf == true && t.of == false && bytes t 0x2000 4 == [0xFF, 0xFF, 0xFF, 0xFF] && t.eip == 0x1006) = true := by
  decide

/-- V10. -/
theorem test_inc_keeps_carry :
    completes (given 0x1000 [(0, 0xFFFFFFFF)] 0x1 []) [0x40] (fun t =>
      t.gpr 0 == 0x0 && t.cf == true && t.zf == true && t.sf == false && t.of == false && t.eip == 0x1001) = true := by
  decide

/-- A17. -/
theorem test_neg_most_negative :
    completes (given 0x1000 [(0, 0x80000000)] 0x0 []) [0xF7, 0xD8] (fun t =>
      t.gpr 0 == 0x80000000 && t.cf == true && t.zf == false && t.sf == true && t.of == true && t.eip == 0x1002) = true := by
  decide

/-- A18. -/
theorem test_mul_bl :
    completes (given 0x1000 [(0, 0x10), (3, 0x10)] 0x0 []) [0xF6, 0xE3] (fun t =>
      t.gpr 0 == 0x100 && t.cf == true && t.zf == false && t.sf == false && t.of == true && t.eip == 0x1002) = true := by
  decide

/-- A19. -/
theorem test_mul_ecx :
    completes (given 0x1000 [(0, 0xFFFFFFFF), (1, 0xFFFFFFFF)] 0x0 []) [0xF7, 0xE1] (fun t =>
      t.gpr 0 == 0x1 && t.gpr 2 == 0xFFFFFFFE && t.cf == true && t.of == true && t.eip == 0x1002) = true := by
  decide

/-- A20. -/
theorem test_imul_ebx :
    completes (given 0x1000 [(0, 0xFFFFFFFF), (3, 0xFFFFFFFF)] 0x0 []) [0xF7, 0xEB] (fun t =>
      t.gpr 0 == 0x1 && t.gpr 2 == 0x0 && t.cf == false && t.of == false && t.eip == 0x1002) = true := by
  decide

/-- A21. -/
theorem test_imul_bl :
    completes (given 0x1000 [(0, 0x80), (3, 0xFF)] 0x0 []) [0xF6, 0xEB] (fun t =>
      t.gpr 0 == 0x80 && t.cf == true && t.of == true && t.eip == 0x1002) = true := by
  decide

/-- V4. -/
theorem test_imul_two :
    completes (given 0x1000 [(0, 0x7), (3, 0x6)] 0x0 []) [0x0F, 0xAF, 0xC3] (fun t =>
      t.gpr 0 == 0x2A && t.cf == false && t.of == false && t.eip == 0x1003) = true := by
  decide

/-- A23. -/
theorem test_imul_three :
    completes (given 0x1000 [(0, 0x80000000)] 0x0 []) [0x6B, 0xC0, 0xFF] (fun t =>
      t.gpr 0 == 0x80000000 && t.cf == true && t.of == true && t.eip == 0x1003) = true := by
  decide

/-- A24. -/
theorem test_div_bl :
    completes (given 0x1000 [(0, 0x64), (3, 0x7)] 0x0 []) [0xF6, 0xF3] (fun t =>
      t.gpr 0 == 0x20E && t.eip == 0x1002) = true := by
  decide

/-- A27. -/
theorem test_idiv_negative_divisor :
    completes (given 0x1000 [(0, 0x7), (1, 0xFFFFFFFE)] 0x0 []) [0xF7, 0xF9] (fun t =>
      t.gpr 0 == 0xFFFFFFFD && t.gpr 2 == 0x1 && t.eip == 0x1002) = true := by
  decide

/-- A28. -/
theorem test_idiv_negative :
    completes (given 0x1000 [(2, 0xFFFFFFFF), (0, 0xFFFFFFF9), (1, 0xFFFFFFFE)] 0x0 []) [0xF7, 0xF9] (fun t =>
      t.gpr 0 == 0x3 && t.gpr 2 == 0xFFFFFFFF && t.eip == 0x1002) = true := by
  decide

/-- L1. -/
theorem test_and_al :
    completes (given 0x1000 [(0, 0xF3)] 0x801 []) [0x24, 0x0F] (fun t =>
      t.gpr 0 == 0x3 && t.cf == false && t.zf == false && t.sf == false && t.of == false && t.eip == 0x1002) = true := by
  decide

/-- V9. -/
theorem test_xor_al :
    completes (given 0x1000 [(0, 0x12345678)] 0x801 []) [0x30, 0xC0] (fun t =>
      t.gpr 0 == 0x12345600 && t.cf == false && t.zf == true && t.sf == false && t.of == false && t.eip == 0x1002) = true := by
  decide

/-- V9. -/
theorem test_or_eax :
    completes (given 0x1000 [(0, 0x80000000), (3, 0x1)] 0x801 []) [0x09, 0xD8] (fun t =>
      t.gpr 0 == 0x80000001 && t.cf == false && t.zf == false && t.sf == true && t.of == false && t.eip == 0x1002) = true := by
  decide

/-- L3. -/
theorem test_test_eax_imm :
    completes (given 0x1000 [(0, 0x80000000)] 0x0 []) [0xF7, 0xC0, 0x00, 0x00, 0x00, 0x80] (fun t =>
      t.gpr 0 == 0x80000000 && t.cf == false && t.zf == false && t.sf == true && t.of == false && t.eip == 0x1006) = true := by
  decide

/-- L4. -/
theorem test_not_m32 :
    completes (given 0x1000 [] 0x8C1 [(0x2000, [0x0F, 0x0F, 0x0F, 0x0F])]) [0xF7, 0x15, 0x00, 0x20, 0x00, 0x00] (fun t =>
      t.cf == true && t.zf == true && t.sf == true && t.of == true && bytes t 0x2000 4 == [0xF0, 0xF0, 0xF0, 0xF0] && t.eip == 0x1006) = true := by
  decide

/-- L5. -/
theorem test_bsf_zero :
    completes (given 0x1000 [(0, 0x1234)] 0x0 []) [0x0F, 0xBC, 0xC1] (fun t =>
      t.gpr 0 == 0x1234 && t.zf == true && t.eip == 0x1003) = true := by
  decide

/-- L6. -/
theorem test_bsf_top :
    completes (given 0x1000 [(1, 0x80000000)] 0x40 []) [0x0F, 0xBC, 0xC1] (fun t =>
      t.gpr 0 == 0x1F && t.zf == false && t.eip == 0x1003) = true := by
  decide

/-- L7. -/
theorem test_bsr_top :
    completes (given 0x1000 [(1, 0xFFFFFFFF)] 0x0 []) [0x0F, 0xBD, 0xC1] (fun t =>
      t.gpr 0 == 0x1F && t.zf == false && t.eip == 0x1003) = true := by
  decide

/-- L8. -/
theorem test_shl_zero :
    completes (given 0x1000 [(0, 0x12345678)] 0x801 []) [0xC1, 0xE0, 0x00] (fun t =>
      t.gpr 0 == 0x12345678 && t.cf == true && t.zf == false && t.sf == false && t.of == true && t.eip == 0x1003) = true := by
  decide

/-- L10. -/
theorem test_shl_cl_masked :
    completes (given 0x1000 [(0, 0x80000000), (1, 0x21)] 0x0 []) [0xD3, 0xE0] (fun t =>
      t.gpr 0 == 0x0 && t.cf == true && t.zf == true && t.sf == false && t.of == true && t.eip == 0x1002) = true := by
  decide

/-- L11. -/
theorem test_shl_al_8 :
    completes (given 0x1000 [(0, 0x1)] 0x0 []) [0xC0, 0xE0, 0x08] (fun t =>
      t.gpr 0 == 0x0 && t.cf == true && t.zf == true && t.sf == false && t.of == true && t.eip == 0x1003) = true := by
  decide

/-- L12. -/
theorem test_shr_eax :
    completes (given 0x1000 [(0, 0x80000000)] 0x0 []) [0xC1, 0xE8, 0x04] (fun t =>
      t.gpr 0 == 0x8000000 && t.cf == false && t.zf == false && t.sf == false && t.of == true && t.eip == 0x1003) = true := by
  decide

/-- L13. -/
theorem test_shr_al_9 :
    completes (given 0x1000 [(0, 0xFF)] 0x0 []) [0xC0, 0xE8, 0x09] (fun t =>
      t.gpr 0 == 0x0 && t.cf == false && t.zf == true && t.sf == false && t.of == true && t.eip == 0x1003) = true := by
  decide

/-- L14. -/
theorem test_sar_eax :
    completes (given 0x1000 [(0, 0x80000000)] 0x0 []) [0xC1, 0xF8, 0x1F] (fun t =>
      t.gpr 0 == 0xFFFFFFFF && t.cf == false && t.zf == false && t.sf == true && t.of == false && t.eip == 0x1003) = true := by
  decide

/-- L15. -/
theorem test_sar_al_9 :
    completes (given 0x1000 [(0, 0x80)] 0x0 []) [0xC0, 0xF8, 0x09] (fun t =>
      t.gpr 0 == 0xFF && t.cf == true && t.zf == false && t.sf == true && t.of == false && t.eip == 0x1003) = true := by
  decide

/-- L16. -/
theorem test_rol_eax :
    completes (given 0x1000 [(0, 0x12345678)] 0x0 []) [0xC1, 0xC0, 0x04] (fun t =>
      t.gpr 0 == 0x23456781 && t.cf == true && t.of == true && t.eip == 0x1003) = true := by
  decide

/-- L17. -/
theorem test_ror_al :
    completes (given 0x1000 [(0, 0x81)] 0x0 []) [0xC0, 0xC8, 0x04] (fun t =>
      t.gpr 0 == 0x18 && t.cf == false && t.of == false && t.eip == 0x1003) = true := by
  decide

/-- L18. -/
theorem test_rcl_eax :
    completes (given 0x1000 [(0, 0x80000000)] 0x1 []) [0xD1, 0xD0] (fun t =>
      t.gpr 0 == 0x1 && t.cf == true && t.of == true && t.eip == 0x1002) = true := by
  decide

/-- L19. -/
theorem test_rcr_al_9 :
    completes (given 0x1000 [(0, 0x55)] 0x1 []) [0xC0, 0xD8, 0x09] (fun t =>
      t.gpr 0 == 0x55 && t.cf == true && t.of == true && t.eip == 0x1003) = true := by
  decide

/-- S1. -/
theorem test_push_esp :
    completes (given 0x1000 [(4, 0x3000)] 0x0 []) [0x54] (fun t =>
      t.gpr 4 == 0x2FFC && bytes t 0x2FFC 4 == [0x00, 0x30, 0x00, 0x00] && t.eip == 0x1001) = true := by
  decide

/-- S2. -/
theorem test_pop_esp :
    completes (given 0x1000 [(4, 0x2FFC)] 0x0 [(0x2FFC, [0x00, 0x05, 0x00, 0x00])]) [0x5C] (fun t =>
      t.gpr 4 == 0x500 && t.eip == 0x1001) = true := by
  decide

/-- S3. -/
theorem test_push_ib :
    completes (given 0x1000 [(4, 0x3000)] 0x0 []) [0x6A, 0xFF] (fun t =>
      t.gpr 4 == 0x2FFC && bytes t 0x2FFC 4 == [0xFF, 0xFF, 0xFF, 0xFF] && t.eip == 0x1002) = true := by
  decide

/-- S5. -/
theorem test_pop_m32 :
    completes (given 0x1000 [(4, 0x2FFC)] 0x0 [(0x2FFC, [0x55])]) [0x8F, 0x05, 0x00, 0x20, 0x00, 0x00] (fun t =>
      t.gpr 4 == 0x3000 && bytes t 0x2000 4 == [0x55, 0x00, 0x00, 0x00] && t.eip == 0x1006) = true := by
  decide

/-- S7. -/
theorem test_pushad :
    completes (given 0x1000 [(4, 0x3000), (0, 0x1), (1, 0x2), (2, 0x3), (3, 0x4), (5, 0x6), (6, 0x7), (7, 0x8)] 0x0 []) [0x60] (fun t =>
      t.gpr 4 == 0x2FE0 && bytes t 0x2FE0 32 == [0x08, 0x00, 0x00, 0x00, 0x07, 0x00, 0x00, 0x00, 0x06, 0x00, 0x00, 0x00, 0x00, 0x30, 0x00, 0x00, 0x04, 0x00, 0x00, 0x00, 0x03, 0x00, 0x00, 0x00, 0x02, 0x00, 0x00, 0x00, 0x01, 0x00, 0x00, 0x00] && t.eip == 0x1001) = true := by
  decide

/-- S8. -/
theorem test_popad :
    completes (given 0x1000 [(4, 0x2FE0)] 0x0 [(0x2FE0, [0x08, 0x00, 0x00, 0x00, 0x07, 0x00, 0x00, 0x00, 0x06, 0x00, 0x00, 0x00, 0x00, 0x90, 0x00, 0x00, 0x04, 0x00, 0x00, 0x00, 0x03, 0x00, 0x00, 0x00, 0x02, 0x00, 0x00, 0x00, 0x01, 0x00, 0x00, 0x00])]) [0x61] (fun t =>
      t.gpr 4 == 0x3000 && t.gpr 0 == 0x1 && t.gpr 1 == 0x2 && t.gpr 2 == 0x3 && t.gpr 3 == 0x4 && t.gpr 5 == 0x6 && t.gpr 6 == 0x7 && t.gpr 7 == 0x8 && t.eip == 0x1001) = true := by
  decide +kernel

/-- S9. -/
theorem test_leave :
    completes (given 0x1000 [(5, 0x2FF0), (4, 0xF00)] 0x0 [(0x2FF0, [0x00, 0x20, 0x00, 0x00])]) [0xC9] (fun t =>
      t.gpr 4 == 0x2FF4 && t.gpr 5 == 0x2000 && t.eip == 0x1001) = true := by
  decide

/-- C1. -/
theorem test_jmp_short :
    completes (given 0x100 [] 0x0 []) [0xEB, 0xFE] (fun t =>
      t.eip == 0x100) = true := by
  decide

/-- C2. -/
theorem test_jmp_near :
    completes (given 0x100 [] 0x0 []) [0xE9, 0x00, 0x00, 0x00, 0x00] (fun t =>
      t.eip == 0x105) = true := by
  decide

/-- C3. -/
theorem test_je_not_taken :
    completes (given 0x10 [] 0x0 []) [0x74, 0x05] (fun t =>
      t.eip == 0x12) = true := by
  decide

/-- C4. -/
theorem test_ja_taken :
    completes (given 0x10 [] 0x0 []) [0x0F, 0x87, 0x00, 0x01, 0x00, 0x00] (fun t =>
      t.eip == 0x116) = true := by
  decide

/-- C5. -/
theorem test_jl_taken :
    completes (given 0x10 [] 0x80 []) [0x7C, 0xF0] (fun t =>
      t.eip == 0x2) = true := by
  decide

/-- C6. -/
theorem test_jmp_wraps :
    completes (given 0x10 [] 0x0 []) [0xEB, 0x80] (fun t =>
      t.eip == 0xFFFFFF92) = true := by
  decide

/-- C7. -/
theorem test_jmp_eax :
    completes (given 0x1000 [(0, 0x400)] 0x0 []) [0xFF, 0xE0] (fun t =>
      t.eip == 0x400) = true := by
  decide

/-- C8. -/
theorem test_call_rel32 :
    completes (given 0x200 [(4, 0x1000)] 0x0 []) [0xE8, 0x00, 0x00, 0x00, 0x00] (fun t =>
      t.gpr 4 == 0xFFC && bytes t 0xFFC 4 == [0x05, 0x02, 0x00, 0x00] && t.eip == 0x205) = true := by
  decide

/-- C9. -/
theorem test_call_m32 :
    completes (given 0x300 [(4, 0x1000)] 0x0 [(0x2000, [0x00, 0x05, 0x00, 0x00])]) [0xFF, 0x15, 0x00, 0x20, 0x00, 0x00] (fun t =>
      t.gpr 4 == 0xFFC && bytes t 0xFFC 4 == [0x06, 0x03, 0x00, 0x00] && t.eip == 0x500) = true := by
  decide

/-- C11. -/
theorem test_ret_iw :
    completes (given 0x1000 [(4, 0x2FFC)] 0x0 [(0x2FFC, [0x05, 0x02])]) [0xC2, 0x08, 0x00] (fun t =>
      t.gpr 4 == 0x3008 && t.eip == 0x205) = true := by
  decide

/-- C12. -/
theorem test_sete_ah :
    completes (given 0x1000 [(0, 0x12345678)] 0x40 []) [0x0F, 0x94, 0xC4] (fun t =>
      t.gpr 0 == 0x12340178 && t.eip == 0x1003) = true := by
  decide

/-- C15. -/
theorem test_hlt :
    completes (given 0x10 [] 0x0 []) [0xF4] (fun t =>
      t.halted && t.eip == 0x11) = true := by
  decide

/-- C19. -/
theorem test_cmc :
    completes (given 0x1000 [] 0x1 []) [0xF5] (fun t =>
      t.cf == false && t.eip == 0x1001) = true := by
  decide

/-- C19. -/
theorem test_std :
    completes (given 0x1000 [] 0x0 []) [0xFD] (fun t =>
      t.df && t.eip == 0x1001) = true := by
  decide

/-- C20. -/
theorem test_nop_rm :
    completes (given 0x20 [] 0x0 []) [0x0F, 0x1F, 0x44, 0x00, 0x00] (fun t =>
      t.eip == 0x25) = true := by
  decide

/-- V6. -/
theorem test_rep_stosb :
    completes (given 0x1000 [(1, 0x4), (7, 0x200), (0, 0x41)] 0x0 []) [0xF3, 0xAA] (fun t =>
      t.gpr 1 == 0x0 && t.gpr 7 == 0x204 && bytes t 0x200 5 == [0x41, 0x41, 0x41, 0x41, 0x00] && t.eip == 0x1002) = true := by
  decide

/-- T1. -/
theorem test_rep_zero :
    completes (given 0x1000 [(7, 0x200)] 0x40 []) [0xF3, 0xAA] (fun t =>
      t.gpr 1 == 0x0 && t.gpr 7 == 0x200 && t.cf == false && t.zf == true && t.sf == false && t.of == false && bytes t 0x200 1 == [0x00] && t.eip == 0x1002) = true := by
  decide

/-- T2. -/
theorem test_movsd_down :
    completes (given 0x1000 [(6, 0x104), (7, 0x204)] 0x400 [(0x104, [0xDD, 0xCC, 0xBB, 0xAA])]) [0xA5] (fun t =>
      t.gpr 6 == 0x100 && t.gpr 7 == 0x200 && bytes t 0x204 4 == [0xDD, 0xCC, 0xBB, 0xAA] && t.eip == 0x1001) = true := by
  decide

/-- T3. -/
theorem test_rep_movsb_overlap :
    completes (given 0x1000 [(6, 0x100), (7, 0x101), (1, 0x3)] 0x0 [(0x100, [0x5A])]) [0xF3, 0xA4] (fun t =>
      t.gpr 1 == 0x0 && t.gpr 6 == 0x103 && t.gpr 7 == 0x104 && bytes t 0x101 3 == [0x5A, 0x5A, 0x5A] && t.eip == 0x1002) = true := by
  decide

/-- T5. -/
theorem test_repne_scasb :
    completes (given 0x1000 [(7, 0x100), (1, 0x3), (0, 0x78)] 0x0 [(0x100, [0x61, 0x62, 0x63])]) [0xF2, 0xAE] (fun t =>
      t.gpr 1 == 0x0 && t.gpr 7 == 0x103 && t.cf == false && t.zf == false && t.sf == false && t.of == false && t.eip == 0x1002) = true := by
  decide

/-- T6. -/
theorem test_repe_cmpsb :
    completes (given 0x1000 [(6, 0x100), (7, 0x200), (1, 0x3)] 0x0 [(0x100, [0x41, 0x42, 0x43]), (0x200, [0x41, 0x42, 0x43])]) [0xF3, 0xA6] (fun t =>
      t.gpr 1 == 0x0 && t.gpr 6 == 0x103 && t.gpr 7 == 0x203 && t.cf == false && t.zf == true && t.eip == 0x1002) = true := by
  decide

/-- T7. -/
theorem test_lodsb :
    completes (given 0x1000 [(6, 0x100), (0, 0x12345600)] 0x0 [(0x100, [0x7F])]) [0xAC] (fun t =>
      t.gpr 0 == 0x1234567F && t.gpr 6 == 0x101 && t.eip == 0x1001) = true := by
  decide

/-- X1. -/
theorem test_fld_m32 :
    completes (given 0x1000 [] 0x0 [(0x100, [0x00, 0x00, 0xC0, 0x3F])]) [0xD9, 0x05, 0x00, 0x01, 0x00, 0x00] (fun t =>
      t.st 0 == 0x3FF8000000000000#64 && t.fpuTop == 7 && t.eip == 0x1006) = true := by
  decide

/-- X2. -/
theorem test_fild_m16 :
    completes (given 0x1000 [] 0x0 [(0x100, [0x00, 0x80])]) [0xDF, 0x05, 0x00, 0x01, 0x00, 0x00] (fun t =>
      t.st 0 == 0xC0E0000000000000#64 && t.eip == 0x1006) = true := by
  decide

/-- X3. -/
theorem test_fistp_overflow :
    completes (fpu 7 0x3800 0x037F 0x3FFF [(7, 0x40E3880000000000#64)] (given 0x1000 [] 0x0 [])) [0xDF, 0x1D, 0x00, 0x01, 0x00, 0x00] (fun t =>
      bytes t 0x100 2 == [0x00, 0x80] && t.fpuTop == 0 && t.fpuTag == 0xFFFF && t.eip == 0x1006) = true := by
  decide

/-- X4. -/
theorem test_fist_truncates_negative :
    completes (fpu 7 0x3800 0x037F 0x3FFF [(7, 0xBFE0000000000000#64)] (given 0x1000 [] 0x0 [])) [0xDB, 0x15, 0x00, 0x01, 0x00, 0x00] (fun t =>
      bytes t 0x100 4 == [0x00, 0x00, 0x00, 0x00] && t.eip == 0x1006) = true := by
  decide

/-- X5. -/
theorem test_fist_truncates :
    completes (fpu 7 0x3800 0x037F 0x3FFF [(7, 0x4007333333333333#64)] (given 0x1000 [] 0x0 [])) [0xDB, 0x15, 0x00, 0x01, 0x00, 0x00] (fun t =>
      bytes t 0x100 4 == [0x02, 0x00, 0x00, 0x00] && t.eip == 0x1006) = true := by
  decide

/-- X6. -/
theorem test_fxch_tags :
    completes (fpu 7 0x3800 0x037F 0x3FFF [(7, 0x4010000000000000#64)] (given 0x1000 [] 0x0 [])) [0xD9, 0xC9] (fun t =>
      t.st 0 == 0x0000000000000000#64 && t.st 1 == 0x4010000000000000#64 && t.fpuTag == 0xFFFC && t.eip == 0x1002) = true := by
  decide

/-- X7. -/
theorem test_fst_sti :
    completes (fpu 7 0x3800 0x037F 0x3FFF [(7, 0x4010000000000000#64)] (given 0x1000 [] 0x0 [])) [0xDD, 0xD1] (fun t =>
      t.st 1 == 0x4010000000000000#64 && t.fpuTag == 0x3FFC && t.eip == 0x1002) = true := by
  decide

/-- X8. -/
theorem test_ffree :
    completes (fpu 7 0x3800 0x037F 0x3FFF [(7, 0x4010000000000000#64)] (given 0x1000 [] 0x0 [])) [0xDD, 0xC0] (fun t =>
      t.fpuTop == 7 && t.fpuTag == 0xFFFF && t.eip == 0x1002) = true := by
  decide

/-- X9. -/
theorem test_fdecstp :
    completes (given 0x1000 [] 0x0 []) [0xD9, 0xF6] (fun t =>
      t.fpuTop == 7 && t.fpuStatus == 0x3800 && t.fpuTag == 0xFFFF && t.eip == 0x1002) = true := by
  decide

/-- X10. -/
theorem test_fninit :
    completes (fpu 5 0x6900 0x0C7F 0x0000 [] (given 0x1000 [] 0x0 [])) [0xDB, 0xE3] (fun t =>
      t.fpuTop == 0 && t.fpuStatus == 0 && t.fpuControl == 0x037F && t.fpuTag == 0xFFFF && t.eip == 0x1002) = true := by
  decide

/-- X11. -/
theorem test_fldcw :
    completes (given 0x1000 [] 0x0 [(0x100, [0x7F, 0x0C])]) [0xD9, 0x2D, 0x00, 0x01, 0x00, 0x00] (fun t =>
      t.fpuControl == 0x0C7F && t.eip == 0x1006) = true := by
  decide

/-- X12. -/
theorem test_fnstcw :
    completes (given 0x1000 [] 0x0 []) [0xD9, 0x3D, 0x00, 0x01, 0x00, 0x00] (fun t =>
      bytes t 0x100 2 == [0x7F, 0x03] && t.eip == 0x1006) = true := by
  decide

/-- X13. -/
theorem test_fnstsw_ax :
    completes (fpu 7 0x7800 0x037F 0x3FFF [] (given 0x1000 [(0, 0x12340000)] 0x0 [])) [0xDF, 0xE0] (fun t =>
      t.gpr 0 == 0x12347800 && t.eip == 0x1002) = true := by
  decide

/-- V8. -/
theorem test_fadd :
    completes (fpu 6 0x3000 0x037F 0x0FFF [(6, 0x4010000000000000#64), (7, 0x4008000000000000#64)] (given 0x1000 [] 0x0 [])) [0xD8, 0xC1] (fun t =>
      t.st 0 == 0x401C000000000000#64 && t.st 1 == 0x4008000000000000#64 && t.fpuTag == 0x0FFF && t.eip == 0x1002) = true := by
  decide

/-- Y1. -/
theorem test_fmul :
    completes (fpu 6 0x3000 0x037F 0x0FFF [(6, 0x4010000000000000#64), (7, 0x4008000000000000#64)] (given 0x1000 [] 0x0 [])) [0xD8, 0xC9] (fun t =>
      t.st 0 == 0x4028000000000000#64 && t.eip == 0x1002) = true := by
  decide

/-- Y2. -/
theorem test_fsub_st0 :
    completes (fpu 6 0x3000 0x037F 0x0FFF [(6, 0x4010000000000000#64), (7, 0x4008000000000000#64)] (given 0x1000 [] 0x0 [])) [0xD8, 0xE1] (fun t =>
      t.st 0 == 0x3FF0000000000000#64 && t.eip == 0x1002) = true := by
  decide

/-- Y3. -/
theorem test_fsubr_st0 :
    completes (fpu 6 0x3000 0x037F 0x0FFF [(6, 0x4010000000000000#64), (7, 0x4008000000000000#64)] (given 0x1000 [] 0x0 [])) [0xD8, 0xE9] (fun t =>
      t.st 0 == 0xBFF0000000000000#64 && t.eip == 0x1002) = true := by
  decide

/-- Y4. -/
theorem test_fsub_sti :
    completes (fpu 6 0x3000 0x037F 0x0FFF [(6, 0x4010000000000000#64), (7, 0x4008000000000000#64)] (given 0x1000 [] 0x0 [])) [0xDC, 0xE9] (fun t =>
      t.st 1 == 0xBFF0000000000000#64 && t.fpuTop == 6 && t.eip == 0x1002) = true := by
  decide

/-- Y5. -/
theorem test_fsubp :
    completes (fpu 6 0x3000 0x037F 0x0FFF [(6, 0x4010000000000000#64), (7, 0x4008000000000000#64)] (given 0x1000 [] 0x0 [])) [0xDE, 0xE9] (fun t =>
      t.st 0 == 0xBFF0000000000000#64 && t.fpuTop == 7 && t.fpuTag == 0x3FFF && t.eip == 0x1002) = true := by
  decide

/-- Y6. -/
theorem test_fdiv_sti :
    completes (fpu 6 0x3000 0x037F 0x0FFF [(6, 0x4010000000000000#64), (7, 0x4008000000000000#64)] (given 0x1000 [] 0x0 [])) [0xDC, 0xF9] (fun t =>
      t.st 1 == 0x3FE8000000000000#64 && t.eip == 0x1002) = true := by
  decide

/-- Y8. -/
theorem test_fdiv_rounds :
    completes (fpu 6 0x3000 0x037F 0x0FFF [(6, 0x4010000000000000#64), (7, 0x4008000000000000#64)] (given 0x1000 [] 0x0 [])) [0xD8, 0xF1] (fun t =>
      t.st 0 == 0x3FF5555555555555#64 && t.eip == 0x1002) = true := by
  decide

/-- Y9. -/
theorem test_fcom :
    completes (fpu 6 0x3000 0x037F 0x0FFF [(6, 0x4010000000000000#64), (7, 0x4008000000000000#64)] (given 0x1000 [] 0x0 [])) [0xD8, 0xD1] (fun t =>
      t.cf == false && t.zf == false && t.sf == false && t.of == false && t.fpuStatus == 0x3000 && t.eip == 0x1002) = true := by
  decide

/-- Y10. -/
theorem test_fcompp :
    completes (fpu 6 0x3000 0x037F 0x0FFF [(6, 0x4010000000000000#64), (7, 0x4008000000000000#64)] (given 0x1000 [] 0x0 [])) [0xDE, 0xD9] (fun t =>
      t.fpuTop == 0 && t.fpuTag == 0xFFFF && t.fpuStatus == 0 && t.eip == 0x1002) = true := by
  decide

/-- Y11. -/
theorem test_fdiv_by_zero :
    completes (fpu 6 0x3000 0x037F 0x0FFF [(6, 0x3FF0000000000000#64), (7, 0x0000000000000000#64)] (given 0x1000 [] 0x0 [])) [0xD8, 0xF1] (fun t =>
      t.st 0 == 0x7FF0000000000000#64 && t.fpuStatus == 0x3000 && t.eip == 0x1002) = true := by
  decide

/-- Y13. -/
theorem test_fsqrt_minus_zero :
    completes (fpu 7 0x3800 0x037F 0x3FFF [(7, 0x8000000000000000#64)] (given 0x1000 [] 0x0 [])) [0xD9, 0xFA] (fun t =>
      t.st 0 == 0x8000000000000000#64 && t.eip == 0x1002) = true := by
  decide

/-- Y14. -/
theorem test_fucom_nan :
    completes (fpu 6 0x3000 0x037F 0x0FFF [(6, 0x7FF8000000000000#64), (7, 0x3FF0000000000000#64)] (given 0x1000 [] 0x0 [])) [0xDD, 0xE1] (fun t =>
      t.fpuStatus == 0x7500 && t.eip == 0x1002) = true := by
  decide

/-- Y15. -/
theorem test_ftst_minus_zero :
    completes (fpu 7 0x3800 0x037F 0x3FFF [(7, 0x8000000000000000#64)] (given 0x1000 [] 0x0 [])) [0xD9, 0xE4] (fun t =>
      t.fpuStatus == 0x7800 && t.eip == 0x1002) = true := by
  decide

/-- Y16. -/
theorem test_fcomi_equal :
    completes (fpu 6 0x3000 0x037F 0x0FFF [(6, 0x4008000000000000#64), (7, 0x4008000000000000#64)] (given 0x1000 [] 0x880 [])) [0xDB, 0xF1] (fun t =>
      t.cf == false && t.zf == true && t.sf == true && t.of == false && t.fpuStatus == 0x3000 && t.eip == 0x1002) = true := by
  decide

/-- Y17. -/
theorem test_fcomip_nan :
    completes (fpu 6 0x3000 0x037F 0x0FFF [(6, 0x7FF8000000000000#64), (7, 0x3FF0000000000000#64)] (given 0x1000 [] 0x0 [])) [0xDF, 0xF1] (fun t =>
      t.cf == true && t.zf == true && t.of == false && t.fpuTop == 7 && t.eip == 0x1002) = true := by
  decide

/-- Y18. -/
theorem test_fcmove_not :
    completes (fpu 6 0x3000 0x037F 0x0FFF [(6, 0x4010000000000000#64), (7, 0x4008000000000000#64)] (given 0x1000 [] 0x0 [])) [0xDA, 0xC9] (fun t =>
      t.st 0 == 0x4010000000000000#64 && t.eip == 0x1002) = true := by
  decide

/-- Y19. -/
theorem test_fcmovnbe_not :
    completes (fpu 6 0x3000 0x037F 0x0FFF [(6, 0x4010000000000000#64), (7, 0x4008000000000000#64)] (given 0x1000 [] 0x1 [])) [0xDB, 0xD1] (fun t =>
      t.st 0 == 0x4010000000000000#64 && t.eip == 0x1002) = true := by
  decide

/-- Y20. -/
theorem test_fiadd :
    completes (fpu 7 0x3800 0x037F 0x3FFF [(7, 0x4000000000000000#64)] (given 0x1000 [] 0x0 [(0x100, [0xFD, 0xFF, 0xFF, 0xFF])])) [0xDA, 0x05, 0x00, 0x01, 0x00, 0x00] (fun t =>
      t.st 0 == 0xBFF0000000000000#64 && t.eip == 0x1006) = true := by
  decide

/-- Y21. -/
theorem test_ficomp :
    completes (fpu 7 0x3800 0x037F 0x3FFF [(7, 0x4014000000000000#64)] (given 0x1000 [] 0x0 [(0x100, [0x05, 0x00])])) [0xDE, 0x1D, 0x00, 0x01, 0x00, 0x00] (fun t =>
      t.fpuStatus == 0x4000 && t.fpuTop == 0 && t.eip == 0x1006) = true := by
  decide

/-- Y22. -/
theorem test_fchs :
    completes (fpu 7 0x3800 0x037F 0x3FFF [(7, 0x4000000000000000#64)] (given 0x1000 [] 0x0 [])) [0xD9, 0xE0] (fun t =>
      t.st 0 == 0xC000000000000000#64 && t.eip == 0x1002) = true := by
  decide

/-- Y22. -/
theorem test_fabs :
    completes (fpu 7 0x3800 0x037F 0x3FFF [(7, 0xC000000000000000#64)] (given 0x1000 [] 0x0 [])) [0xD9, 0xE1] (fun t =>
      t.st 0 == 0x4000000000000000#64 && t.eip == 0x1002) = true := by
  decide

/-- V7. -/
theorem test_fld1_pushes :
    completes (given 0x1000 [] 0x0 []) [0xD9, 0xE8] (fun t =>
      t.st 0 == 0x3FF0000000000000#64 && t.fpuTop == 7 && t.fpuTag == 0x3FFF && t.fpuStatus == 0x3800 && t.eip == 0x1002) = true := by
  decide

/-- E13. -/
theorem test_ud2 :
    faults (given 0x1000 [] 0x0 []) [0x0F, 0x0B] (.unknownOpcode (.two 0x0B) 0x1000) = true := by
  decide

/-- E14. -/
theorem test_cli :
    faults (given 0x1000 [] 0x0 []) [0xFA] (.unknownOpcode (.one 0xFA) 0x1000) = true := by
  decide

/-- E15. -/
theorem test_opsize_add :
    faults (given 0x1000 [] 0x0 []) [0x66, 0x01, 0xD8] (.unsupportedOperandSize (.one 0x01) 0x1000) = true := by
  decide

/-- E17. -/
theorem test_group_c1_6 :
    faults (given 0x1000 [] 0x0 []) [0xC1, 0xF0, 0x01] (.unsupportedGroupExtension (.one 0xC1) 0xF0 0x1000) = true := by
  decide

/-- E18. -/
theorem test_far_call :
    faults (given 0x1000 [] 0x0 []) [0xFF, 0x1C, 0x24] (.unsupportedGroupExtension (.one 0xFF) 0x1C 0x1000) = true := by
  decide

/-- E19. -/
theorem test_lea_mod3 :
    faults (given 0x1000 [] 0x0 []) [0x8D, 0xC0] (.unsupportedAddressingForm (.one 0x8D) 0xC0 0x1000) = true := by
  decide

/-- E20. -/
theorem test_fetch_immediate :
    faults (given 0xFFFF [] 0x0 []) [0xB8] (.memoryFault 0x10000 1 0x10000 0xFFFF) = true := by
  decide

/-- E21. -/
theorem test_fetch_escape :
    faults (given 0xFFFF [] 0x0 []) [0x0F] (.memoryFault 0x10000 1 0x10000 0xFFFF) = true := by
  decide

/-- E22. -/
theorem test_fetch_outside :
    faults (given 0x10000 [] 0x0 []) [] (.memoryFault 0x10000 1 0x10000 0x10000) = true := by
  decide

/-- M7. -/
theorem test_mov_moffs_edge :
    faults (given 0x1000 [(0, 0x11223344)] 0x0 []) [0xA3, 0xFE, 0xFF, 0x00, 0x00] (.memoryFault 0xFFFE 4 0x10000 0x1000) = true := by
  decide

/-- V5. -/
theorem test_div_zero :
    faults (given 0x1000 [(0, 0x64)] 0x0 []) [0xF7, 0xF3] (.divideByZero (.one 0xF7) 0x1000) = true := by
  decide

/-- A25. -/
theorem test_div_overflow :
    faults (given 0x1000 [(2, 0x1), (3, 0x1)] 0x0 []) [0xF7, 0xF3] (.quotientOverflow (.one 0xF7) 0x1000) = true := by
  decide

/-- A26. -/
theorem test_idiv_overflow :
    faults (given 0x1000 [(2, 0xFFFFFFFF), (0, 0x80000000), (1, 0xFFFFFFFF)] 0x0 []) [0xF7, 0xF9] (.quotientOverflow (.one 0xF7) 0x1000) = true := by
  decide

/-- A29. -/
theorem test_idiv_bl_overflow :
    faults (given 0x1000 [(0, 0x8000), (3, 0xFF)] 0x0 []) [0xF6, 0xFB] (.quotientOverflow (.one 0xF6) 0x1000) = true := by
  decide

/-- A30. -/
theorem test_div_memory_first :
    faults (given 0x1000 [(3, 0x20000)] 0x0 []) [0xF7, 0x33] (.memoryFault 0x20000 4 0x10000 0x1000) = true := by
  decide

/-- S6. -/
theorem test_push_wraps :
    faults (given 0x1000 [(4, 0x2)] 0x0 []) [0x50] (.memoryFault 0xFFFFFFFE 4 0x10000 0x1000) = true := by
  decide

/-- C10. -/
theorem test_call_wraps :
    faults (given 0x300 [(4, 0x2)] 0x0 []) [0xE8, 0x10, 0x00, 0x00, 0x00] (.memoryFault 0xFFFFFFFE 4 0x10000 0x300) = true := by
  decide

/-- C14. -/
theorem test_cmove_reads_first :
    faults (given 0x1000 [(3, 0x20000)] 0x0 []) [0x0F, 0x44, 0x03] (.memoryFault 0x20000 4 0x10000 0x1000) = true := by
  decide

/-- C16. -/
theorem test_int_unhandled :
    faults (given 0x20 [] 0x0 []) [0xCD, 0x80] (.unhandledInterrupt 0x80 0x20) = true := by
  decide

/-- V13. -/
theorem test_jp_faults :
    faults (given 0x1000 [] 0x0 []) [0x7A, 0x02] (.unsupportedCondition (.one 0x7A) 0x1000) = true := by
  decide

/-- V13. -/
theorem test_jp_last_byte :
    faults (given 0xFFFF [] 0x0 []) [0x7A] (.unsupportedCondition (.one 0x7A) 0xFFFF) = true := by
  decide

/-- V13. -/
theorem test_cmovp_faults :
    faults (given 0x1000 [] 0x0 []) [0x0F, 0x4A, 0xC3] (.unsupportedCondition (.two 0x4A) 0x1000) = true := by
  decide

/-- V13. -/
theorem test_fcmovu_faults :
    faults (given 0x1000 [] 0x0 []) [0xDA, 0xD9] (.unsupportedCondition (.one 0xDA) 0x1000) = true := by
  decide

/-- T10. -/
theorem test_opsize_stosd :
    faults (given 0x1000 [(7, 0x100), (1, 0x2)] 0x0 []) [0x66, 0xF3, 0xAB] (.unsupportedOperandSize (.one 0xAB) 0x1000) = true := by
  decide

/-- X14. -/
theorem test_fld1_opsize :
    faults (given 0x1000 [] 0x0 []) [0x66, 0xD9, 0xE8] (.unsupportedOperandSize (.one 0xD9) 0x1000) = true := by
  decide

/-- X15. -/
theorem test_fisttp :
    faults (given 0x1000 [] 0x0 []) [0xDD, 0x0D, 0x00, 0x01, 0x00, 0x00] (.unsupportedGroupExtension (.one 0xDD) 0x0D 0x1000) = true := by
  decide +kernel

/-- X17. -/
theorem test_fld_edge :
    faults (given 0x1000 [] 0x0 []) [0xDD, 0x05, 0xFC, 0xFF, 0x00, 0x00] (.memoryFault 0xFFFC 8 0x10000 0x1000) = true := by
  decide

/-! ### Decoding

The words of every row, written from its key and fields in spec/opcode_table.json: a ModRM byte C1 (mod 3, rm 1) or 03
(mod 0, rm 3) with the row's /n, register 1 in a +r or +i opcode, and 12 for each immediate byte. -/

/-- The bytes decode to a well-formed instruction of the row, none left, and the encoder writes them back. -/
def decodesTo (code : List Byte) (i : Instr) : Bool :=
  match decode code with
  | .ok (c, []) => c.instr == i && (c.wf && encode c == code)
  | _ => false

/-- The pairs all do. -/
def decodeAll (l : List (List Byte × Instr)) : Bool := l.all fun p => decodesTo p.1 p.2

theorem test_words_one_0 : decodeAll
    [([0x00, 0xC1], .addRm8R8), ([0x01, 0xC1], .addRm32R32), ([0x02, 0xC1], .addR8Rm8),
     ([0x03, 0xC1], .addR32Rm32), ([0x04, 0x12], .addAlIb), ([0x05, 0x12, 0x12, 0x12, 0x12], .addEaxId),
     ([0x08, 0xC1], .orRm8R8), ([0x09, 0xC1], .orRm32R32), ([0x0A, 0xC1], .orR8Rm8),
     ([0x0B, 0xC1], .orR32Rm32), ([0x0C, 0x12], .orAlIb), ([0x0D, 0x12, 0x12, 0x12, 0x12], .orEaxId),
     ([0x10, 0xC1], .adcRm8R8), ([0x11, 0xC1], .adcRm32R32), ([0x12, 0xC1], .adcR8Rm8),
     ([0x13, 0xC1], .adcR32Rm32), ([0x14, 0x12], .adcAlIb), ([0x15, 0x12, 0x12, 0x12, 0x12], .adcEaxId),
     ([0x18, 0xC1], .sbbRm8R8), ([0x19, 0xC1], .sbbRm32R32), ([0x1A, 0xC1], .sbbR8Rm8),
     ([0x1B, 0xC1], .sbbR32Rm32), ([0x1C, 0x12], .sbbAlIb), ([0x1D, 0x12, 0x12, 0x12, 0x12], .sbbEaxId),
     ([0x20, 0xC1], .andRm8R8), ([0x21, 0xC1], .andRm32R32), ([0x22, 0xC1], .andR8Rm8),
     ([0x23, 0xC1], .andR32Rm32), ([0x24, 0x12], .andAlIb), ([0x25, 0x12, 0x12, 0x12, 0x12], .andEaxId),
     ([0x28, 0xC1], .subRm8R8), ([0x29, 0xC1], .subRm32R32)] = true := by
  decide +kernel

theorem test_words_one_1 : decodeAll
    [([0x2A, 0xC1], .subR8Rm8), ([0x2B, 0xC1], .subR32Rm32), ([0x2C, 0x12], .subAlIb),
     ([0x2D, 0x12, 0x12, 0x12, 0x12], .subEaxId), ([0x30, 0xC1], .xorRm8R8), ([0x31, 0xC1], .xorRm32R32),
     ([0x32, 0xC1], .xorR8Rm8), ([0x33, 0xC1], .xorR32Rm32), ([0x34, 0x12], .xorAlIb),
     ([0x35, 0x12, 0x12, 0x12, 0x12], .xorEaxId), ([0x38, 0xC1], .cmpRm8R8), ([0x39, 0xC1], .cmpRm32R32),
     ([0x3A, 0xC1], .cmpR8Rm8), ([0x3B, 0xC1], .cmpR32Rm32), ([0x3C, 0x12], .cmpAlIb),
     ([0x3D, 0x12, 0x12, 0x12, 0x12], .cmpEaxId), ([0x41], .incR32), ([0x49], .decR32), ([0x51], .pushR32),
     ([0x59], .popR32), ([0x60], .pushad), ([0x61], .popad), ([0x68, 0x12, 0x12, 0x12, 0x12], .pushId),
     ([0x69, 0xC1, 0x12, 0x12, 0x12, 0x12], .imulR32Rm32Id), ([0x6A, 0x12], .pushIb),
     ([0x6B, 0xC1, 0x12], .imulR32Rm32Ib), ([0x70, 0x12], .joRel8), ([0x71, 0x12], .jnoRel8),
     ([0x72, 0x12], .jbRel8), ([0x73, 0x12], .jaeRel8), ([0x74, 0x12], .jeRel8), ([0x75, 0x12], .jneRel8)] = true := by
  decide +kernel

theorem test_words_one_2 : decodeAll
    [([0x76, 0x12], .jbeRel8), ([0x77, 0x12], .jaRel8), ([0x78, 0x12], .jsRel8), ([0x79, 0x12], .jnsRel8),
     ([0x7A], .jpRel8), ([0x7B], .jnpRel8), ([0x7C, 0x12], .jlRel8), ([0x7D, 0x12], .jgeRel8),
     ([0x7E, 0x12], .jleRel8), ([0x7F, 0x12], .jgRel8), ([0x80, 0xC1, 0x12], .addRm8Ib),
     ([0x81, 0xC1, 0x12, 0x12, 0x12, 0x12], .addRm32Id), ([0x83, 0xC1, 0x12], .addRm32Ib),
     ([0x80, 0xC9, 0x12], .orRm8Ib), ([0x81, 0xC9, 0x12, 0x12, 0x12, 0x12], .orRm32Id),
     ([0x83, 0xC9, 0x12], .orRm32Ib), ([0x80, 0xD1, 0x12], .adcRm8Ib),
     ([0x81, 0xD1, 0x12, 0x12, 0x12, 0x12], .adcRm32Id), ([0x83, 0xD1, 0x12], .adcRm32Ib),
     ([0x80, 0xD9, 0x12], .sbbRm8Ib), ([0x81, 0xD9, 0x12, 0x12, 0x12, 0x12], .sbbRm32Id),
     ([0x83, 0xD9, 0x12], .sbbRm32Ib), ([0x80, 0xE1, 0x12], .andRm8Ib),
     ([0x81, 0xE1, 0x12, 0x12, 0x12, 0x12], .andRm32Id), ([0x83, 0xE1, 0x12], .andRm32Ib),
     ([0x80, 0xE9, 0x12], .subRm8Ib), ([0x81, 0xE9, 0x12, 0x12, 0x12, 0x12], .subRm32Id),
     ([0x83, 0xE9, 0x12], .subRm32Ib), ([0x80, 0xF1, 0x12], .xorRm8Ib),
     ([0x81, 0xF1, 0x12, 0x12, 0x12, 0x12], .xorRm32Id), ([0x83, 0xF1, 0x12], .xorRm32Ib),
     ([0x80, 0xF9, 0x12], .cmpRm8Ib)] = true := by
  decide +kernel

theorem test_words_one_3 : decodeAll
    [([0x81, 0xF9, 0x12, 0x12, 0x12, 0x12], .cmpRm32Id), ([0x83, 0xF9, 0x12], .cmpRm32Ib),
     ([0x84, 0xC1], .testRm8R8), ([0x85, 0xC1], .testRm32R32), ([0x88, 0xC1], .movRm8R8),
     ([0x89, 0xC1], .movRm32R32), ([0x8A, 0xC1], .movR8Rm8), ([0x8B, 0xC1], .movR32Rm32),
     ([0x8D, 0x03], .leaR32M), ([0x8F, 0xC1], .popRm32), ([0x90], .nop), ([0x98], .cwde), ([0x99], .cdq),
     ([0x9B], .wait), ([0xA0, 0x12, 0x12, 0x12, 0x12], .movAlMoffs8),
     ([0xA1, 0x12, 0x12, 0x12, 0x12], .movEaxMoffs32), ([0xA2, 0x12, 0x12, 0x12, 0x12], .movMoffs8Al),
     ([0xA3, 0x12, 0x12, 0x12, 0x12], .movMoffs32Eax), ([0xA4], .movsb), ([0xA5], .movsd), ([0xA6], .cmpsb),
     ([0xA7], .cmpsd), ([0xA8, 0x12], .testAlIb), ([0xA9, 0x12, 0x12, 0x12, 0x12], .testEaxId),
     ([0xAA], .stosb), ([0xAB], .stosd), ([0xAC], .lodsb), ([0xAD], .lodsd), ([0xAE], .scasb),
     ([0xAF], .scasd), ([0xB1, 0x12], .movR8Ib), ([0xB9, 0x12, 0x12, 0x12, 0x12], .movR32Id)] = true := by
  decide +kernel

theorem test_words_one_4 : decodeAll
    [([0xC0, 0xC1, 0x12], .rolRm8Ib), ([0xC0, 0xC9, 0x12], .rorRm8Ib), ([0xC0, 0xD1, 0x12], .rclRm8Ib),
     ([0xC0, 0xD9, 0x12], .rcrRm8Ib), ([0xC0, 0xE1, 0x12], .shlRm8Ib), ([0xC0, 0xE9, 0x12], .shrRm8Ib),
     ([0xC0, 0xF9, 0x12], .sarRm8Ib), ([0xC1, 0xC1, 0x12], .rolRm32Ib), ([0xC1, 0xC9, 0x12], .rorRm32Ib),
     ([0xC1, 0xD1, 0x12], .rclRm32Ib), ([0xC1, 0xD9, 0x12], .rcrRm32Ib), ([0xC1, 0xE1, 0x12], .shlRm32Ib),
     ([0xC1, 0xE9, 0x12], .shrRm32Ib), ([0xC1, 0xF9, 0x12], .sarRm32Ib), ([0xD0, 0xC1], .rolRm8One),
     ([0xD0, 0xC9], .rorRm8One), ([0xD0, 0xD1], .rclRm8One), ([0xD0, 0xD9], .rcrRm8One),
     ([0xD0, 0xE1], .shlRm8One), ([0xD0, 0xE9], .shrRm8One), ([0xD0, 0xF9], .sarRm8One),
     ([0xD1, 0xC1], .rolRm32One), ([0xD1, 0xC9], .rorRm32One), ([0xD1, 0xD1], .rclRm32One),
     ([0xD1, 0xD9], .rcrRm32One), ([0xD1, 0xE1], .shlRm32One), ([0xD1, 0xE9], .shrRm32One),
     ([0xD1, 0xF9], .sarRm32One), ([0xD2, 0xC1], .rolRm8Cl), ([0xD2, 0xC9], .rorRm8Cl),
     ([0xD2, 0xD1], .rclRm8Cl), ([0xD2, 0xD9], .rcrRm8Cl)] = true := by
  decide +kernel

theorem test_words_one_5 : decodeAll
    [([0xD2, 0xE1], .shlRm8Cl), ([0xD2, 0xE9], .shrRm8Cl), ([0xD2, 0xF9], .sarRm8Cl),
     ([0xD3, 0xC1], .rolRm32Cl), ([0xD3, 0xC9], .rorRm32Cl), ([0xD3, 0xD1], .rclRm32Cl),
     ([0xD3, 0xD9], .rcrRm32Cl), ([0xD3, 0xE1], .shlRm32Cl), ([0xD3, 0xE9], .shrRm32Cl),
     ([0xD3, 0xF9], .sarRm32Cl), ([0xC2, 0x12, 0x12], .retIw), ([0xC3], .ret), ([0xC4, 0x03], .lesR32M),
     ([0xC5, 0x03], .ldsR32M), ([0xC6, 0xC1, 0x12], .movRm8Ib),
     ([0xC7, 0xC1, 0x12, 0x12, 0x12, 0x12], .movRm32Id), ([0xC9], .leave), ([0xCC], .int3),
     ([0xCD, 0x12], .intIb), ([0xE8, 0x12, 0x12, 0x12, 0x12], .callRel32),
     ([0xE9, 0x12, 0x12, 0x12, 0x12], .jmpRel32), ([0xEB, 0x12], .jmpRel8), ([0xF4], .hlt), ([0xF5], .cmc),
     ([0xF6, 0xC1, 0x12], .testRm8Ib), ([0xF6, 0xD1], .notRm8), ([0xF6, 0xD9], .negRm8),
     ([0xF6, 0xE1], .mulRm8), ([0xF6, 0xE9], .imulRm8), ([0xF6, 0xF1], .divRm8), ([0xF6, 0xF9], .idivRm8),
     ([0xF7, 0xC1, 0x12, 0x12, 0x12, 0x12], .testRm32Id)] = true := by
  decide +kernel

theorem test_words_one_6 : decodeAll
    [([0xF7, 0xD1], .notRm32), ([0xF7, 0xD9], .negRm32), ([0xF7, 0xE1], .mulRm32), ([0xF7, 0xE9], .imulRm32),
     ([0xF7, 0xF1], .divRm32), ([0xF7, 0xF9], .idivRm32), ([0xF8], .clc), ([0xF9], .stc), ([0xFC], .cld),
     ([0xFD], .std), ([0xFE, 0xC1], .incRm8), ([0xFE, 0xC9], .decRm8), ([0xFF, 0xC1], .incRm32),
     ([0xFF, 0xC9], .decRm32), ([0xFF, 0xD1], .callRm32), ([0xFF, 0xE1], .jmpRm32),
     ([0xFF, 0xF1], .pushRm32)] = true := by
  decide +kernel

theorem test_words_two_0 : decodeAll
    [([0x0F, 0x1F, 0xC1], .nopRm32), ([0x0F, 0x40, 0xC1], .cmovoR32Rm32),
     ([0x0F, 0x41, 0xC1], .cmovnoR32Rm32), ([0x0F, 0x42, 0xC1], .cmovbR32Rm32),
     ([0x0F, 0x43, 0xC1], .cmovaeR32Rm32), ([0x0F, 0x44, 0xC1], .cmoveR32Rm32),
     ([0x0F, 0x45, 0xC1], .cmovneR32Rm32), ([0x0F, 0x46, 0xC1], .cmovbeR32Rm32),
     ([0x0F, 0x47, 0xC1], .cmovaR32Rm32), ([0x0F, 0x48, 0xC1], .cmovsR32Rm32),
     ([0x0F, 0x49, 0xC1], .cmovnsR32Rm32), ([0x0F, 0x4A, 0xC1], .cmovpR32Rm32),
     ([0x0F, 0x4B, 0xC1], .cmovnpR32Rm32), ([0x0F, 0x4C, 0xC1], .cmovlR32Rm32),
     ([0x0F, 0x4D, 0xC1], .cmovgeR32Rm32), ([0x0F, 0x4E, 0xC1], .cmovleR32Rm32),
     ([0x0F, 0x4F, 0xC1], .cmovgR32Rm32), ([0x0F, 0x80, 0x12, 0x12, 0x12, 0x12], .joRel32),
     ([0x0F, 0x81, 0x12, 0x12, 0x12, 0x12], .jnoRel32), ([0x0F, 0x82, 0x12, 0x12, 0x12, 0x12], .jbRel32),
     ([0x0F, 0x83, 0x12, 0x12, 0x12, 0x12], .jaeRel32), ([0x0F, 0x84, 0x12, 0x12, 0x12, 0x12], .jeRel32),
     ([0x0F, 0x85, 0x12, 0x12, 0x12, 0x12], .jneRel32), ([0x0F, 0x86, 0x12, 0x12, 0x12, 0x12], .jbeRel32),
     ([0x0F, 0x87, 0x12, 0x12, 0x12, 0x12], .jaRel32), ([0x0F, 0x88, 0x12, 0x12, 0x12, 0x12], .jsRel32),
     ([0x0F, 0x89, 0x12, 0x12, 0x12, 0x12], .jnsRel32), ([0x0F, 0x8A], .jpRel32), ([0x0F, 0x8B], .jnpRel32),
     ([0x0F, 0x8C, 0x12, 0x12, 0x12, 0x12], .jlRel32), ([0x0F, 0x8D, 0x12, 0x12, 0x12, 0x12], .jgeRel32),
     ([0x0F, 0x8E, 0x12, 0x12, 0x12, 0x12], .jleRel32)] = true := by
  decide +kernel

theorem test_words_two_1 : decodeAll
    [([0x0F, 0x8F, 0x12, 0x12, 0x12, 0x12], .jgRel32), ([0x0F, 0x90, 0xC1], .setoRm8),
     ([0x0F, 0x91, 0xC1], .setnoRm8), ([0x0F, 0x92, 0xC1], .setbRm8), ([0x0F, 0x93, 0xC1], .setaeRm8),
     ([0x0F, 0x94, 0xC1], .seteRm8), ([0x0F, 0x95, 0xC1], .setneRm8), ([0x0F, 0x96, 0xC1], .setbeRm8),
     ([0x0F, 0x97, 0xC1], .setaRm8), ([0x0F, 0x98, 0xC1], .setsRm8), ([0x0F, 0x99, 0xC1], .setnsRm8),
     ([0x0F, 0x9A, 0xC1], .setpRm8), ([0x0F, 0x9B, 0xC1], .setnpRm8), ([0x0F, 0x9C, 0xC1], .setlRm8),
     ([0x0F, 0x9D, 0xC1], .setgeRm8), ([0x0F, 0x9E, 0xC1], .setleRm8), ([0x0F, 0x9F, 0xC1], .setgRm8),
     ([0x0F, 0xAF, 0xC1], .imulR32Rm32), ([0x0F, 0xB2, 0x03], .lssR32M), ([0x0F, 0xB4, 0x03], .lfsR32M),
     ([0x0F, 0xB5, 0x03], .lgsR32M), ([0x0F, 0xB6, 0xC1], .movzxR32Rm8), ([0x0F, 0xB7, 0xC1], .movzxR32Rm16),
     ([0x0F, 0xBC, 0xC1], .bsfR32Rm32), ([0x0F, 0xBD, 0xC1], .bsrR32Rm32),
     ([0x0F, 0xBE, 0xC1], .movsxR32Rm8), ([0x0F, 0xBF, 0xC1], .movsxR32Rm16)] = true := by
  decide +kernel

theorem test_words_x87_0 : decodeAll
    [([0xD8, 0x03], .faddM32fp), ([0xD8, 0x0B], .fmulM32fp), ([0xD8, 0x13], .fcomM32fp),
     ([0xD8, 0x1B], .fcompM32fp), ([0xD8, 0x23], .fsubM32fp), ([0xD8, 0x2B], .fsubrM32fp),
     ([0xD8, 0x33], .fdivM32fp), ([0xD8, 0x3B], .fdivrM32fp), ([0xDA, 0x03], .fiaddM32int),
     ([0xDA, 0x0B], .fimulM32int), ([0xDA, 0x13], .ficomM32int), ([0xDA, 0x1B], .ficompM32int),
     ([0xDA, 0x23], .fisubM32int), ([0xDA, 0x2B], .fisubrM32int), ([0xDA, 0x33], .fidivM32int),
     ([0xDA, 0x3B], .fidivrM32int), ([0xDC, 0x03], .faddM64fp), ([0xDC, 0x0B], .fmulM64fp),
     ([0xDC, 0x13], .fcomM64fp), ([0xDC, 0x1B], .fcompM64fp), ([0xDC, 0x23], .fsubM64fp),
     ([0xDC, 0x2B], .fsubrM64fp), ([0xDC, 0x33], .fdivM64fp), ([0xDC, 0x3B], .fdivrM64fp),
     ([0xDE, 0x03], .fiaddM16int), ([0xDE, 0x0B], .fimulM16int), ([0xDE, 0x13], .ficomM16int),
     ([0xDE, 0x1B], .ficompM16int), ([0xDE, 0x23], .fisubM16int), ([0xDE, 0x2B], .fisubrM16int),
     ([0xDE, 0x33], .fidivM16int), ([0xDE, 0x3B], .fidivrM16int)] = true := by
  decide +kernel

theorem test_words_x87_1 : decodeAll
    [([0xD9, 0x03], .fldM32fp), ([0xD9, 0x13], .fstM32fp), ([0xD9, 0x1B], .fstpM32fp),
     ([0xD9, 0x2B], .fldcwM16), ([0xD9, 0x3B], .fnstcwM16), ([0xDB, 0x03], .fildM32int),
     ([0xDB, 0x13], .fistM32int), ([0xDB, 0x1B], .fistpM32int), ([0xDB, 0x2B], .fldM80fp),
     ([0xDB, 0x3B], .fstpM80fp), ([0xDD, 0x03], .fldM64fp), ([0xDD, 0x13], .fstM64fp),
     ([0xDD, 0x1B], .fstpM64fp), ([0xDD, 0x3B], .fnstswM16), ([0xDF, 0x03], .fildM16int),
     ([0xDF, 0x13], .fistM16int), ([0xDF, 0x1B], .fistpM16int), ([0xDF, 0x2B], .fildM64int),
     ([0xDF, 0x3B], .fistpM64int), ([0xD8, 0xC1], .faddSt0Sti), ([0xD8, 0xC9], .fmulSt0Sti),
     ([0xD8, 0xD1], .fcomSti), ([0xD8, 0xD9], .fcompSti), ([0xD8, 0xE1], .fsubSt0Sti),
     ([0xD8, 0xE9], .fsubrSt0Sti), ([0xD8, 0xF1], .fdivSt0Sti), ([0xD8, 0xF9], .fdivrSt0Sti),
     ([0xD9, 0xC1], .fldSti), ([0xD9, 0xC9], .fxchSti), ([0xD9, 0xD0], .fnop), ([0xD9, 0xE0], .fchs),
     ([0xD9, 0xE1], .fabs)] = true := by
  decide +kernel

theorem test_words_x87_2 : decodeAll
    [([0xD9, 0xE4], .ftst), ([0xD9, 0xE8], .fld1), ([0xD9, 0xE9], .fldl2t), ([0xD9, 0xEA], .fldl2e),
     ([0xD9, 0xEB], .fldpi), ([0xD9, 0xEC], .fldlg2), ([0xD9, 0xED], .fldln2), ([0xD9, 0xEE], .fldz),
     ([0xD9, 0xF6], .fdecstp), ([0xD9, 0xF7], .fincstp), ([0xD9, 0xFA], .fsqrt),
     ([0xDA, 0xC1], .fcmovbSt0Sti), ([0xDA, 0xC9], .fcmoveSt0Sti), ([0xDA, 0xD1], .fcmovbeSt0Sti),
     ([0xDA, 0xD9], .fcmovuSt0Sti), ([0xDA, 0xE9], .fucompp), ([0xDB, 0xC1], .fcmovnbSt0Sti),
     ([0xDB, 0xC9], .fcmovneSt0Sti), ([0xDB, 0xD1], .fcmovnbeSt0Sti), ([0xDB, 0xD9], .fcmovnuSt0Sti),
     ([0xDB, 0xE2], .fnclex), ([0xDB, 0xE3], .fninit), ([0xDB, 0xE9], .fucomiSt0Sti),
     ([0xDB, 0xF1], .fcomiSt0Sti), ([0xDC, 0xC1], .faddStiSt0), ([0xDC, 0xC9], .fmulStiSt0),
     ([0xDC, 0xE1], .fsubrStiSt0), ([0xDC, 0xE9], .fsubStiSt0), ([0xDC, 0xF1], .fdivrStiSt0),
     ([0xDC, 0xF9], .fdivStiSt0), ([0xDD, 0xC1], .ffreeSti), ([0xDD, 0xD1], .fstSti)] = true := by
  decide +kernel

theorem test_words_x87_3 : decodeAll
    [([0xDD, 0xD9], .fstpSti), ([0xDD, 0xE1], .fucomSti), ([0xDD, 0xE9], .fucompSti),
     ([0xDE, 0xC1], .faddpStiSt0), ([0xDE, 0xC9], .fmulpStiSt0), ([0xDE, 0xD9], .fcompp),
     ([0xDE, 0xE1], .fsubrpStiSt0), ([0xDE, 0xE9], .fsubpStiSt0), ([0xDE, 0xF1], .fdivrpStiSt0),
     ([0xDE, 0xF9], .fdivpStiSt0), ([0xDF, 0xE0], .fnstswAx), ([0xDF, 0xE9], .fucomipSt0Sti),
     ([0xDF, 0xF1], .fcomipSt0Sti)] = true := by
  decide +kernel

/-- The operands that a few words carry: ModR/M, SIB, displacement, immediate and prefixes (R110 to R131). -/
theorem test_decode_operands :
    decode [0b10000001, 0b01000010, 0b11111100, 0x78, 0x56, 0x34, 0x12] =
        .ok (⟨.addRm32Id, noPrefixes, ⟨0, .mem (.base 2 (.disp8 0xFC)), 0x12345678, 0, 0⟩⟩, []) ∧
      decode [0b01101011, 0b11000001, 0b11111111] =
        .ok (⟨.imulR32Rm32Ib, noPrefixes, ⟨0, .reg 1, 0xFFFFFFFF, 0, 0⟩⟩, []) ∧
      decode [0b01100100, 0b10001010, 0b00001100, 0b11101101, 0x10, 0x00, 0x00, 0x00] =
        .ok (⟨.movR8Rm8, ⟨.fs, false, .none⟩, ⟨1, .mem (.sibAbs 3 5 0x10), 0, 0, 0⟩⟩, []) ∧
      decode [0b11000001, 0b11100011, 0b00011111] = .ok (⟨.shlRm32Ib, noPrefixes, ⟨4, .reg 3, 31, 0, 0⟩⟩, []) ∧
      decode [0b01010111] = .ok (⟨.pushR32, noPrefixes, ⟨7, .reg 0, 0, 0, 0⟩⟩, []) ∧
      decode [0b01110101, 0b11111011] = .ok (⟨.jneRel8, noPrefixes, ⟨0, .reg 0, 0, 0xFFFFFFFB, 0⟩⟩, []) ∧
      decode [0b11000010, 0x08, 0x00] = .ok (⟨.retIw, noPrefixes, ⟨0, .reg 0, 8, 0, 0⟩⟩, []) ∧
      decode [0b11110010, 0b10100110] = .ok (⟨.cmpsb, ⟨.none, false, .repne⟩, ⟨0, .reg 0, 0, 0, 0⟩⟩, []) ∧
      decode [0b11011001, 0b00101101, 0x00, 0x01, 0x00, 0x00] =
        .ok (⟨.fldcwM16, noPrefixes, ⟨5, .mem (.abs 0x100), 0, 0, 0⟩⟩, []) ∧
      decode [0b11011110, 0b11111001] = .ok (⟨.fdivpStiSt0, noPrefixes, ⟨7, .reg 1, 0, 0, 0⟩⟩, []) ∧
      decode [0b11011011, 0b11110111] = .ok (⟨.fcomiSt0Sti, noPrefixes, ⟨6, .reg 7, 0, 0, 0⟩⟩, []) :=
  ⟨rfl, rfl, rfl, rfl, rfl, rfl, rfl, rfl, rfl, rfl, rfl⟩

/-! ### Ill-formed records -/

/-- A base of 4, or a base of 5 without a displacement, needs another form (R112 to R114). -/
theorem test_ill_memory : MemOp.wf (.base 4 .none) = false ∧ MemOp.wf (.base 5 .none) = false ∧
    MemOp.wf (.sib 0 1 5 .none) = false ∧ RM.wf (.mem (.base 4 .none)) = false := by
  decide

/-- A field that the row's shape does not have, or has otherwise (R151). -/
theorem test_ill_shape : Shape.none.wf ⟨1, .reg 0, 0, 0, 0⟩ = false ∧ Shape.none.wf ⟨0, .reg 1, 0, 0, 0⟩ = false ∧
    Shape.plusR.wf ⟨1, .reg 1, 0, 0, 0⟩ = false ∧ Shape.reg.wf ⟨0, .mem (.base 4 .none), 0, 0, 0⟩ = false ∧
    Shape.mem.wf ⟨0, .reg 1, 0, 0, 0⟩ = false ∧ (Shape.ext 2).wf ⟨3, .reg 0, 0, 0, 0⟩ = false ∧
    (Shape.extMem 2).wf ⟨2, .reg 0, 0, 0, 0⟩ = false ∧ (Shape.extMem 2).wf ⟨1, .mem (.abs 0), 0, 0, 0⟩ = false ∧
    (Shape.st 2).wf ⟨2, .mem (.abs 0), 0, 0, 0⟩ = false ∧ (Shape.st 2).wf ⟨1, .reg 0, 0, 0, 0⟩ = false ∧
    (Shape.fixed 4 1).wf ⟨4, .reg 0, 0, 0, 0⟩ = false ∧ (Shape.fixed 4 1).wf ⟨5, .reg 1, 0, 0, 0⟩ = false := by
  decide

/-- An immediate that the row's field cannot hold, or a field the row does not have (R130). -/
theorem test_ill_immediate : ImmKind.none.wf false ⟨0, .reg 0, 1, 0, 0⟩ = false ∧
    ImmKind.ib.wf false ⟨0, .reg 0, 256, 0, 0⟩ = false ∧ ImmKind.ibSext.wf false ⟨0, .reg 0, 0x80, 0, 0⟩ = false ∧
    ImmKind.iw.wf false ⟨0, .reg 0, 0x10000, 0, 0⟩ = false ∧ ImmKind.id.wf false ⟨0, .reg 0, 0, 1, 0⟩ = false ∧
    ImmKind.idOrIw.wf true ⟨0, .reg 0, 0x10000, 0, 0⟩ = false ∧ ImmKind.rel8.wf false ⟨0, .reg 0, 0, 0x80, 0⟩ = false ∧
    ImmKind.rel32.wf false ⟨0, .reg 0, 1, 0, 0⟩ = false ∧ ImmKind.moffs32.wf false ⟨0, .reg 0, 0, 1, 0⟩ = false := by
  decide

/-- The operand-size prefix on a row that does not honour it (R105). -/
theorem test_ill_opsize : Code.wf ⟨.addRm32R32, ⟨.none, true, .none⟩, ⟨0, .reg 0, 0, 0, 0⟩⟩ = false := by
  decide

/-! ### Witnesses

For each statement with hypotheses, a state and operands that meet them, at the boundary where its clauses meet. -/

/-- The state of `given 0`, entered with these operands. -/
def entered (o : Operands) : State := { given 0 [] 0 [] with ops := o }

/-- Entered with the memory operand at `a`, an immediate, and these registers. -/
def atMem (a : Word) (regs : List (Reg × Word)) (imm : Word) : State :=
  { given 0 regs 0 [] with ops := ⟨0, .mem (.abs a), imm, 0, 0⟩ }

/-- The state after a step. -/
def stepped (s : State) : State :=
  match step s with
  | .next t => t
  | _ => s

/-- REP STOSD that faults in its third iteration (vector T4). -/
def repFault : State := given 0 [(0, 0x11111111), (1, 3), (7, 0xFFF8)] 0 [(0, [0xF3, 0xAB])]

/-- ADD [EAX], AL from reset (vector F10). -/
def addZero : State := given 0 [] 0 []

theorem witness_DecodeOfEncode :
    Code.wf ⟨.movR32Id, ⟨.gs, true, .repne⟩, ⟨7, .reg 0, 0xFFFF, 0, 0⟩⟩ = true := by decide

theorem witness_DecodedIsWellFormed :
    decode [0x00, 0x00] = .ok (⟨.addRm8R8, noPrefixes, ⟨0, .mem (.base 0 .none), 0, 0, 0⟩⟩, []) := rfl

theorem witness_PrefixScan :
    (∀ p ∈ ([0x64, 0x66, 0xF3] : List Byte), isPrefixByte p = true) ∧ isPrefixByte 0x8B = false := by decide

theorem witness_StepRunsDecoded :
    addZero.running ∧
      fetch addZero = .code ⟨.addRm8R8, noPrefixes, ⟨0, .mem (.base 0 .none), 0, 0, 0⟩⟩ 2 ∧
      ({ addZero with halted := true } : State).terminal = none ∧
      ({ addZero with terminal := some (.divideByZero (.one 0xF7) 0) } : State).terminal ≠ none := by decide

theorem witness_StepRunsEncoded :
    let s := given 0xFFFE [] 0 [(0xFFFE, [0x01, 0xD8])]
    let c : Code := ⟨.addRm32R32, noPrefixes, ⟨3, .reg 0, 0, 0, 0⟩⟩
    s.running ∧ c.wf = true ∧ ∀ k : Nat, k < (encode c).length →
      fits s (s.eip + BitVec.ofNat 32 k) 1 = true ∧
        s.mem.read (s.eip + BitVec.ofNat 32 k).toNat = (encode c).getD k 0 := by decide

/-- These bytes at the end of memory, where the step fetches. -/
def atEnd (l : List Byte) : State := given (BitVec.ofNat 32 (0x10000 - l.length)) [] 0 [(0x10000 - l.length, l)]

/-- The bytes stand at `eip`, and memory ends behind them. -/
def standsAtEnd (l : List Byte) : Bool :=
  let s := atEnd l
  s.terminal.isNone && !s.halted && !fits s (s.eip + BitVec.ofNat 32 l.length) 1 &&
    (List.range l.length).all fun k =>
      fits s (s.eip + BitVec.ofNat 32 k) 1 && s.mem.read (s.eip + BitVec.ofNat 32 k).toNat == l.getD k 0

/-- One list of bytes per clause: a cut-off encoding, prefixes alone, an unlisted opcode of one byte and of two, 0x66
on a row of either that does not honour it, a group (also under 0x66), 0F 1F, x87 memory and register forms, and the
register forms of rows that need memory. -/
theorem witness_FetchFaults :
    let c : Code := ⟨.addRm32R32, ⟨.fs, false, .none⟩, ⟨3, .reg 0, 0, 0, 0⟩⟩
    (c.wf = true ∧ (encode c).take 2 = [0x64, 0x01]) ∧
      ∀ l ∈ ([[0x64, 0x01], [], [0x66, 0xF3], [0xFB], [0x66, 0xF1], [0x0F, 0x0B], [0x66, 0x0F, 0xA2], [0x66, 0x01],
          [0x66, 0x0F, 0xAF], [0xF3, 0xC1, 0xF0], [0x66, 0xC7, 0x08], [0x66, 0x0F, 0x1F, 0xC8], [0xDD, 0x0D],
          [0xDB, 0xBF], [0xD9, 0xD1], [0xDF, 0xC0], [0x8D, 0xC0], [0x0F, 0xB2, 0xC0]] : List (List Byte)),
        standsAtEnd l = true := by decide +kernel

theorem witness_FaultsArePrecise :
    (∃ t : State, step (given 0 [] 0 [(0, [0xFA])]) = .next t ∧ t.terminal = some (.unknownOpcode (.one 0xFA) 0)) ∧
    ∃ t : State, step repFault = .next t ∧ t.terminal = some (.memoryFault 0x10000 4 0x10000 0) :=
  ⟨⟨stepped (given 0 [] 0 [(0, [0xFA])]), rfl, by decide⟩, ⟨stepped repFault, rfl, by decide⟩⟩

/-- The third iteration's fault keeps the two that completed (vector T4). -/
theorem test_rep_stosd_faults :
    (stepped repFault).gpr 1 = 1 ∧ (stepped repFault).gpr 7 = 0x10000 ∧ (stepped repFault).eip = 0 ∧
      (stepped repFault).instrCount = 0 ∧
      bytes (stepped repFault) 0xFFF8 8 = [0x11, 0x11, 0x11, 0x11, 0x11, 0x11, 0x11, 0x11] := by decide

theorem witness_MemoryStaysInBounds : addZero.memOk ∧ ∃ t : State, step addZero = .next t :=
  ⟨by decide, stepped addZero, rfl⟩

theorem witness_TopFieldFollowsTop : addZero.topSynced ∧ ∃ t : State, step addZero = .next t :=
  ⟨by decide, stepped addZero, rfl⟩

theorem witness_PrefixStateIsReset : repFault.running ∧ ∃ t : State, step repFault = .next t :=
  ⟨by decide, stepped repFault, rfl⟩

theorem witness_InertFlagsStay : addZero.config.excHandler = false ∧ addZero.config.intHandler = false ∧
    ∃ t : State, step addZero = .next t :=
  ⟨by decide, by decide, stepped addZero, rfl⟩

theorem witness_CountOfCompletedSteps :
    (addZero.running ∧ addZero.config.excHandler = false ∧
      ∃ t : State, step addZero = .next t ∧ t.terminal = none) ∧
    ∃ t : State, step repFault = .next t ∧ t.terminal ≠ none :=
  ⟨⟨by decide, by decide, stepped addZero, rfl, by decide⟩, stepped repFault, rfl, by decide⟩

theorem witness_OnlyHltHalts :
    let s := given 0x10 [] 0 [(0x10, [0xF4])]
    s.running ∧ s.config.excHandler = false ∧ s.config.intHandler = false ∧
      ∃ t : State, step s = .next t ∧ t.halted = true :=
  ⟨by decide, by decide, by decide, stepped (given 0x10 [] 0 [(0x10, [0xF4])]), rfl, by decide⟩

theorem witness_MemoryAccess : (0xFFFC : Word).toNat + 4 ≤ addZero.config.memSize ∧
    addZero.config.memSize < (0xFFFD : Word).toNat + 4 := by decide

theorem witness_MovCompletes :
    (MovForm.toRm false).fits (atMem 0xFFFF [] 0) = true ∧ (MovForm.fromRm true).fits (atMem 0xFFFC [] 0) = true ∧
      (MovForm.immRm true).fits { atMem 0xFFFE [] 0 with opsizeOverride := true } = true ∧
      (MovForm.fromMoffs true).fits (entered ⟨0, .reg 0, 0, 0, 0xFFFC⟩) = true ∧
      (MovForm.toMoffs false).fits (entered ⟨0, .reg 0, 0, 0, 0xFFFF⟩) = true := by decide

theorem witness_ExtensionsAndAddressLoads :
    rmFits 8 (atMem 0xFFFF [] 0) = true ∧ rmFits 16 (atMem 0xFFFE [] 0) = true ∧
      (atMem 0xFFFC [] 0).ops.rm = .mem (.abs 0xFFFC) ∧
      fits (atMem 0xFFFC [] 0) (linearAddr (atMem 0xFFFC [] 0) (.abs 0xFFFC)) 4 = true := by decide

theorem witness_AddCompletes :
    AluForm.fits .rm8r8 (atMem 0xFFFF [] 0) = true ∧ AluForm.fits .r32rm32 (atMem 0xFFFC [] 0) = true ∧
      AluForm.fits .rm32ib (atMem 0xFFFC [] 0) = true ∧ AluForm.fits .alib addZero = true := by decide

theorem witness_SubAndCmpComplete : AluForm.fits .rm32r32 (atMem 0xFFFC [] 0) = true := by decide

theorem witness_AdcAndSbbComplete :
    AluForm.fits .rm32id (atMem 0xFFFC [] 0) = true ∧ (literal addZero).config.carryIn = .literalTwoOperand ∧
      addZero.config.carryIn = .architectural := by decide

theorem witness_LogicCompletes :
    AluForm.fits .r8rm8 (atMem 0xFFFF [] 0) = true ∧ AluForm.fits .eaxid addZero = true := by decide

theorem witness_UnaryCompletes :
    UnForm.fits .rm8 (atMem 0xFFFF [] 0) = true ∧ UnForm.fits .rm32 (atMem 0xFFFC [] 0) = true ∧
      UnForm.fits .r32 addZero = true := by decide

theorem witness_MultiplyCompletes :
    rmFits 8 (atMem 0xFFFF [] 0) = true ∧ rmFits 32 (atMem 0xFFFC [] 0) = true := by decide

/-- Quotients of 255, 2^32 - 1, -128 and -2^31, the last that fit. -/
theorem witness_DivideCompletes :
    let s8 := { given 0 [(0, 0xFF), (3, 1)] 0 [] with ops := ⟨0, .reg 3, 0, 0, 0⟩ }
    let s32 := { given 0 [(0, 0xFFFFFFFF), (3, 1)] 0 [] with ops := ⟨0, .reg 3, 0, 0, 0⟩ }
    let i8 := { given 0 [(0, 0xFF80), (3, 1)] 0 [] with ops := ⟨0, .reg 3, 0, 0, 0⟩ }
    let i32 := { given 0 [(0, 0x80000000), (2, 0xFFFFFFFF), (3, 1)] 0 [] with ops := ⟨0, .reg 3, 0, 0, 0⟩ }
    ((rmVal 8 s8).toNat ≠ 0 ∧ (regVal 16 s8 0).toNat / (rmVal 8 s8).toNat = 2 ^ 8 - 1) ∧
    ((rmVal 32 s32).toNat ≠ 0 ∧
      ((s32.gpr 2).toNat * 2 ^ 32 + (s32.gpr 0).toNat) / (rmVal 32 s32).toNat = 2 ^ 32 - 1) ∧
    ((rmVal 8 i8).toInt ≠ 0 ∧ (regVal 16 i8 0).toInt.tdiv (rmVal 8 i8).toInt = -2 ^ 7) ∧
    (rmVal 32 i32).toInt ≠ 0 ∧
      ((i32.gpr 2).toInt * 2 ^ 32 + (i32.gpr 0).toNat).tdiv (rmVal 32 i32).toInt = -2 ^ 31 := by decide

/-- A zero divisor, and quotients of 2^8, 2^32, 2^7 and 2^31, the first that do not fit. -/
theorem witness_DivideFaults :
    let s8 := { given 0 [(0, 0x100), (3, 1)] 0 [] with ops := ⟨0, .reg 3, 0, 0, 0⟩ }
    let s32 := { given 0 [(2, 1), (3, 1)] 0 [] with ops := ⟨0, .reg 3, 0, 0, 0⟩ }
    let i8 := { given 0 [(0, 0x80), (3, 1)] 0 [] with ops := ⟨0, .reg 3, 0, 0, 0⟩ }
    let i32 := { given 0 [(0, 0x80000000), (3, 1)] 0 [] with ops := ⟨0, .reg 3, 0, 0, 0⟩ }
    rmVal 32 (entered ⟨0, .reg 3, 0, 0, 0⟩) = 0 ∧ rmVal 8 (atMem 0xFFFF [] 0) = 0 ∧
    (rmVal 8 s8 ≠ 0 ∧ (regVal 16 s8 0).toNat / (rmVal 8 s8).toNat = 2 ^ 8) ∧
    (rmVal 32 s32 ≠ 0 ∧ ((s32.gpr 2).toNat * 2 ^ 32 + (s32.gpr 0).toNat) / (rmVal 32 s32).toNat = 2 ^ 32) ∧
    (rmVal 8 i8 ≠ 0 ∧ (regVal 16 i8 0).toInt.tdiv (rmVal 8 i8).toInt = 2 ^ 7) ∧
    rmVal 32 i32 ≠ 0 ∧
      ((i32.gpr 2).toInt * 2 ^ 32 + (i32.gpr 0).toNat).tdiv (rmVal 32 i32).toInt = 2 ^ 31 := by decide

theorem witness_BitScanCompletes :
    rmFits 32 (atMem 0xFFFC [] 0) = true ∧ rmVal 32 (atMem 0xFFFC [] 0) = 0 ∧
      rmVal 32 { given 0 [(1, 0x80000000)] 0 [] with ops := ⟨0, .reg 1, 0, 0, 0⟩ } ≠ 0 := by decide

theorem witness_ZeroCountShifts :
    rmFits (shiftWidth true) (atMem 0xFFFC [] 0x20) = true ∧ CountForm.count .ib (atMem 0xFFFC [] 0x20) = 0 ∧
      CountForm.count .cl (given 0 [(1, 0x20)] 0 []) = 0 := by decide

theorem witness_RotatesComplete :
    rmFits (shiftWidth false) (atMem 0xFFFF [] 0x1F) = true ∧ CountForm.count .ib (atMem 0xFFFF [] 0x1F) ≠ 0 ∧
      CountForm.count .cl (given 0 [(1, 0x21)] 0 []) ≠ 0 ∧ CountForm.count .one addZero ≠ 0 := by decide

theorem witness_ShiftsComplete :
    rmFits (shiftWidth true) (atMem 0xFFFC [] 1) = true ∧ CountForm.count .ib (atMem 0xFFFC [] 1) ≠ 0 := by decide

theorem witness_PushCompletes :
    fits (given 0 [(4, 4)] 0 []) 0 4 = true ∧ fits (given 0 [(4, 0x10000)] 0 []) 0xFFFC 4 = true ∧
      rmFits 32 (atMem 0xFFFC [(4, 4)] 0) = true := by decide

theorem witness_PopCompletes :
    let s := atMem 0xFFFC [(4, 0xFFFC), (5, 0xFFFC)] 0
    fits s (s.gpr 4) 4 = true ∧ fits s (s.gpr 5) 4 = true ∧ s.ops.rm = .mem (.abs 0xFFFC) ∧
      fits s (linearAddr (s.setGpr 4 (s.gpr 4 + 4)) (.abs 0xFFFC)) 4 = true := by decide

theorem witness_PushadPopadComplete :
    (given 0 [] 0 []).config.wf ∧ fits (given 0 [(4, 0x10000)] 0 []) (0x10000 - 32) 32 = true ∧
      fits (given 0 [(4, 0xFFE0)] 0 []) 0xFFE0 32 = true := by decide

theorem witness_JumpsComplete : rmFits 32 (atMem 0xFFFC [] 0) = true := by decide

theorem witness_CallsAndReturnsComplete :
    let s := atMem 0xFFFC [(4, 0x10000)] 0
    fits s (s.gpr 4 - 4) 4 = true ∧ rmFits 32 s = true ∧ fits (given 0 [(4, 0xFFFC)] 0 []) 0xFFFC 4 = true := by
  decide

theorem witness_SetAndMoveOnCondition :
    rmFits 8 (atMem 0xFFFF [] 0) = true ∧ rmFits 32 (atMem 0xFFFC [] 0) = true := by decide

/-- The state with both handlers installed. -/
def withHandlers (s : State) : State := { s with config := { s.config with excHandler := true, intHandler := true } }

theorem witness_SoftwareInterrupts :
    addZero.config.intHandler = false ∧ (withHandlers addZero).config.intHandler = true ∧
      (withHandlers addZero).config.excHandler = true ∧ (Fault.unknownOpcode (.one 0xFA) 0).code ≤ 8 ∧
      ¬(Fault.unhandledInterrupt 3 0).code ≤ 8 := by decide

/-- INT 80 (vector C16 with a handler, R352, R523): the handler is called with `eip` behind the two bytes, and the
step counts. -/
theorem test_int_handled :
    let s := withHandlers (given 0x20 [] 0 [(0x20, [0xCD, 0x80])])
    let h := hostInterrupt 0 0x80 { s with eip := 0x22, next := 0x22, ops := ⟨0, .reg 0, 0x80, 0, 0⟩ }
    (stepped s).eip = h.eip ∧ (stepped s).x = h.x ∧ (stepped s).instrCount = 1 := ⟨rfl, rfl, rfl⟩

/-- Vector E14 with an exception handler (R520): it sees the state of before, and the step does not count. -/
theorem test_fault_handled :
    let s := withHandlers (given 0x1000 [] 0 [(0x1000, [0xFA])])
    let h := hostException 0 (.unknownOpcode (.one 0xFA) 0x1000) s
    (stepped s).eip = h.eip ∧ (stepped s).instrCount = 0 ∧ (stepped s).terminal = none := ⟨rfl, rfl, rfl⟩

theorem witness_StringsOnceComplete :
    let s := given 0 [(6, 0xFFFC), (7, 0xFFFC)] 0 []
    s.rep = .none ∧ StringOp.fits .movs true s = true ∧ StringOp.fits .scas true s = true ∧
      StringOp.fits .stos false (given 0 [(7, 0xFFFF)] 0 []) = true := by decide

theorem witness_RepeatUnfolds :
    let s : State := { given 0 [(1, 1), (7, 0xFFFF)] 0 [] with rep := .repne }
    let u : State := { given 0 [(1, 1), (6, 0xFFFD), (7, 0xFFFD)] 0 [] with rep := .repe }
    (s.rep ≠ .none ∧ s.gpr 1 ≠ 0 ∧ StringOp.fits .scas false s = true ∧ StringOp.fits .scas true s = false ∧
      StringOp.failedAddr .scas true s = 0xFFFF ∧ StringOp.endsEarly .scas .repne (s.setZf true) = true ∧
      StringOp.endsEarly .scas .repne (s.setZf false) = false ∧ (given 0 [] 0 []).gpr 1 = 0) ∧
    StringOp.fits .movs true u = false ∧ StringOp.failedAddr .movs true u = 0xFFFD ∧
      StringOp.fits .cmps true (u.setGpr 6 0) = false ∧
      StringOp.failedAddr .cmps true ((u.setGpr 6 0).setGpr 7 0xFFFE) = 0xFFFE := by decide

theorem witness_RepStosFills :
    let s : State := { given 0 [(1, 3), (7, 0xFFF4)] 0 [] with rep := .repe }
    s.rep ≠ .none ∧ s.df = false ∧ s.config.wf ∧
      (s.gpr 7).toNat + (s.gpr 1).toNat * (elemWidth true / 8) = s.config.memSize := by decide

theorem witness_NinePushesWrap : (List.replicate 9 (0x3FF0000000000000#64 : F64)).length = 9 := by decide

theorem witness_X87LoadsComplete :
    LoadForm.fits .m80fp (atMem 0xFFF6 [] 0) = true ∧ LoadForm.fits .m16int (atMem 0xFFFE [] 0) = true ∧
      LoadForm.fits .pi addZero = true := by decide

theorem witness_X87StoresComplete :
    memFits (StoreForm.bytes .fstpM80) (atMem 0xFFF6 [] 0) = true ∧
      memFits (StoreForm.bytes .fnstcw) (atMem 0xFFFE [] 0) = true := by decide

theorem witness_X87StackControl :
    memFits 2 (atMem 0xFFFE [] 0) = true ∧
      slotOf (entered ⟨0, .reg 7, 0, 0, 0⟩) (entered ⟨0, .reg 7, 0, 0, 0⟩).stIndex.toNat ≠
        slotOf (entered ⟨0, .reg 7, 0, 0, 0⟩) 0 := by decide

theorem witness_X87MemoryArithmetic : memFits (SrcForm.bytes .m64fp) (atMem 0xFFF8 [] 0) = true := by decide

theorem witness_X87ComparesComplete : memFits (SrcForm.bytes .m32int) (atMem 0xFFFC [] 0) = true := by decide

theorem numeric_one : numeric 0x3FF0000000000000#64 = 1 := by
  rw [numeric, show value64 0x3FF0000000000000#64 = .fin false (2 ^ 52) (-52) from by decide]
  norm_num

theorem witness_ArithmeticIsRounded :
    isFinite 0x3FF0000000000000#64 = true ∧ numeric 0x3FF0000000000000#64 ≠ 0 ∧
      0 < numeric 0x3FF0000000000000#64 := by
  rw [numeric_one]
  exact ⟨by decide, by norm_num, by norm_num⟩

theorem witness_ComparisonIsNumeric :
    isNan 0x7FF0000000000001#64 = true ∧ isFinite 0x7FEFFFFFFFFFFFFF#64 = true := by decide

theorem witness_ConversionsAreExact :
    cvtF32ToF64 0x3F800000#32 = some 0x3FF0000000000000#64 ∧ isNan 0x7FF0000000000000#64 = false ∧
      (2 ^ 53 : Int).natAbs ≤ 2 ^ 53 := by decide

theorem witness_IntegerConversionTruncates :
    16 ∈ [16, 32, 64] ∧ isFinite 0x7FF0000000000000#64 = false ∧ isFinite 0xC0E0000000000000#64 = true ∧
      intConv 0#16 0xC0E0000000000000#64 = 0x8000#16 ∧ intConv 0x1234#16 0x40E0000000000000#64 = 0x1234#16 := by
  decide

theorem witness_FloatSpecialCases :
    isNan 0xFFF8000000000000#64 = true ∧ isFinite 0x8010000000000000#64 = true ∧
      (0x8010000000000000#64 : F64).msb = true := by decide

theorem witness_OperandFaults :
    ((atMem 0xFFFD [] 0).ops.rm = .mem (.abs 0xFFFD) ∧
      ∀ p ∈ [(0xFFFD, 4), (0x10000, 1), (0xFFFF, 2), (0xFFF9, 8), (0xFFF7, 10)],
        fits (atMem p.1 [] 0) (linearAddr (atMem p.1 [] 0) (.abs p.1)) p.2 = false) ∧
    (let s : State := { entered ⟨0, .reg 0, 0, 0, 0xFFFF⟩ with opsizeOverride := true };
      movWidth true s / 8 = 2 ∧ fits s (resolveSeg s s.ops.moffs) (movWidth true s / 8) = false) ∧
    (let s := atMem 0x1000 [(4, 2), (5, 0xFFFD)] 0;
      rmFits 32 s = true ∧ fits s (s.gpr 4 - 4) 4 = false ∧ fits s (s.gpr 5) 4 = false ∧
        fits s (s.gpr 4 - 32) 32 = false) ∧
    (let s := given 0 [(4, 0xFFFD)] 0 [];
      fits s (s.gpr 4) 4 = false ∧ fits s (s.gpr 4) 32 = false) ∧
    let s : State := { given 0 [(4, 0xFFF9)] 0 [] with ops := ⟨0, .mem (.sib 0 4 4 .none), 0, 0, 0⟩ }
    fits s (s.gpr 4) 4 = true ∧
      fits s (linearAddr (s.setGpr 4 (s.gpr 4 + 4)) (.sib 0 4 4 .none)) 4 = false ∧ s.rep = .none ∧
      StringOp.fits .movs true (s.setGpr 6 0xFFFD) = false ∧
      StringOp.failedAddr .movs true (s.setGpr 6 0xFFFD) = 0xFFFD := by decide

/-- REP MOVSD that reads outside memory and writes inside (R382, R503): the source's fault, with nothing stored. -/
theorem test_rep_movsd_source_faults :
    let t := stepped (given 0 [(1, 1), (6, 0xFFFD), (7, 0x2000)] 0 [(0, [0xF3, 0xA5])])
    t.terminal = some (.memoryFault 0xFFFD 4 0x10000 0) ∧ t.gpr 1 = 1 := by decide

/-- POP [ESP] at the top of memory (R325): the fault is at the address formed after ESP advanced, and ESP stands as
before (R511). -/
theorem test_pop_memory_faults :
    faults (given 0x1000 [(4, 0xFFFA)] 0 []) [0x8F, 0x04, 0x24] (.memoryFault 0xFFFE 4 0x10000 0x1000) = true := by
  decide

/-! ### Loading, launching and the host's writes -/

/-- The launch of R552, steps 1 to 6: the second payload overwrites, the stub slot holds its address, ESP and a byte
are the host's, and TOP follows `fpu_top` (R50). -/
theorem test_launch :
    let l : Launch :=
      { config := { State.reset.config with memSize := 0x10000 },
        payloads := [(0x1000, [0xB8, 0x01, 0x00, 0x00, 0x00]), (0x1000, [0xB9])], stubs := [(0x2000, 0x12345678)],
        entry := 0x1000,
        writes := [.gpr 4 0x8000, .flags 0x400, .fpuTop 7, .fpuStatus 0x0100, .bytes 0x3000 [0xC3]] }
    (match launch l with
      | .ok s => s.gpr 4 == 0x8000 && s.df && s.eip == 0x1000 && bytes s 0x1000 2 == [0xB9, 0x01] &&
          bytes s 0x2000 4 == [0x78, 0x56, 0x34, 0x12] && bytes s 0x3000 1 == [0xC3] && s.fpuStatus == 0x3900 &&
          s.instrCount == 0 && (stepped s).gpr 1 == 1 && (stepped s).instrCount == 1
      | .error _ => false) = true := by decide

/-- A payload that overruns memory is the host's MemoryFault (R86, R552 step 2). -/
theorem test_launch_overrun :
    launch ⟨{ State.reset.config with memSize := 0x10000 }, [(0xFFFF, [1, 2])], [], 0, []⟩ =
      .error (.memoryFault 0xFFFF 2 0x10000 0) := by decide

/-- HLT, then a host write that clears `halted` (R53, R554): the machine runs on, and the writes are not counted. -/
theorem test_session :
    (match (given 0 [] 0 [(0, [0xF4, 0x40])]).session
        [.run 5, .write (.gpr 0 7), .write (.halted false), .run 1] with
      | .ok q => q.1.gpr 0 == 8 && q.1.instrCount == 2 && q.2 == [.halted, .budgetExhausted]
      | .error _ => false) = true := by decide

/-! ### The state after reset and the host's words -/

/-- F9, F10: the first step from reset runs ADD [EAX], AL. -/
theorem test_reset_step :
    (stepped State.reset).eip = 2 ∧ (stepped State.reset).zf = true ∧ (stepped State.reset).instrCount = 1 := by decide

/-- The byte B8 is MOV r32, imm32; INC EAX (40) placed where the next step fetches. -/
theorem test_withFetchWord :
    decodeTableWord 8 0xB8 = some .movR32Id ∧ (stepped (State.reset.withFetchWord 8 0x40)).gpr 0 = 1 := by decide

theorem test_reset_memory : State.reset.memOk := by decide

/-- The codes of R500, and the start address. -/
theorem test_fault_codes :
    (Fault.memoryFault 0x10000 4 0x10000 7).code = 3 ∧ (Fault.divideByZero (.one 0xF7) 9).code = 7 ∧
      (Fault.unhandledInterrupt 3 9).code = 9 ∧ (Fault.memoryFault 0x10000 4 0x10000 7).start = 7 := by decide

end Sys2Proof.Tests
end

section
/-! PROOFS. Family 10_state: what reset leaves, the register aliases, and the x87 push and pop. -/

namespace Sys2Proof.Proofs

open Sys2Proof.Machine Sys2Proof.Claims Sys2Proof.Laws

/-! ### Reset -/

theorem gpr_reset (i : Reg) : State.reset.gpr i = 0 := Vector.getElem_replicate i.isLt

theorem slot_reset (p : BitVec 3) : slot State.reset p.toNat = 0 := by
  rw [slot_eq]
  exact Vector.getElem_replicate p.isLt

/-- Settles O1: each field is the value R60 gives it, and an empty memory reads 0 everywhere (R71). -/
theorem resetState : Obligations.ResetState := by
  unfold Obligations.ResetState
  have hslot : ∀ p : Nat, p < 8 → slot State.reset p = 0 := fun p hp => by
    simpa [Nat.mod_eq_of_lt hp] using slot_reset (BitVec.ofNat 3 p)
  exact ⟨gpr_reset, rfl, rfl, hslot, rfl, rfl, rfl, rfl, rfl, rfl, rfl, rfl, rfl, fun _ => rfl⟩

/-! ### Register aliases -/

/-- Settles O17: a read of each width is its alias's bits of one register, and a write sets just those. -/
theorem registerAliases : Obligations.RegisterAliases := by
  unfold Obligations.RegisterAliases
  exact fun s r => ⟨r8_eq s r, r16_eq s r, regSet_setR8 s r, regSet_setR16 s r, regSet_setGpr s r⟩

/-! ### The x87 stack -/

theorem pushed_fpush (s : State) (v : F64) : Pushed s (s.fpush v) v := by
  unfold Pushed
  rw [← top_sub_one]
  refine ⟨topIs_fpush s v, ?_, ?_, fun n hn => ?_, fun n hlt hn => ?_, rfl⟩
  · rw [slot_fpush, if_pos rfl]
  · rw [tagBits_fpush s v (s.fpuTop - 1).isLt, if_pos rfl]
  · rw [slot_fpush, if_neg (List.mem_singleton.not.1 hn)]
  · rw [tagBits_fpush s v hlt, if_neg (List.mem_singleton.not.1 hn)]

theorem popped_fpop (s : State) : Popped s s.fpop := by
  unfold Popped
  rw [← top_add_one]
  refine ⟨topIs_fpop s, ?_, fun n _ => rfl, fun n hlt hn => ?_, rfl⟩
  · rw [tagBits_fpop s s.fpuTop.isLt, if_pos rfl]
  · rw [tagBits_fpop s hlt, if_neg (List.mem_singleton.not.1 hn)]

/-- A push renumbers the stack: what was ST(i) is ST(i + 1) (R47, R48). -/
theorem slotOf_fpush (s : State) (v : F64) (i : Nat) : slotOf (s.fpush v) (i + 1) = slotOf s i := by
  simp only [slotOf, fpush_fpuTop, top_sub_one]
  omega

theorem slotOf_foldl_fpush (vs : List F64) : ∀ (s : State) (i : Nat),
    slotOf (vs.foldl State.fpush s) (i + vs.length) = slotOf s i := by
  induction vs with
  | nil => intro s i; rfl
  | cons v rest ih =>
    intro s i
    rw [List.foldl_cons, List.length_cons, ← slotOf_fpush s v i, ← ih (s.fpush v) (i + 1),
      Nat.add_assoc, Nat.add_comm 1]

/-- The eight slots are a ring (R47). -/
theorem slotOf_add_eight (s : State) (i : Nat) : slotOf s (i + 8) = slotOf s i := by
  simp only [slotOf]
  omega

/-- The pushed value is ST(0) (R48). -/
theorem st0_fpush (s : State) (v : F64) : slot (s.fpush v) (slotOf (s.fpush v) 0) = v := by
  have h : slotOf (s.fpush v) 0 = (s.fpuTop - 1).toNat := Nat.mod_eq_of_lt (s.fpuTop - 1).isLt
  rw [h, slot_fpush, if_pos rfl]

/-- The push writes the slot that was ST(7) (R48, R49). -/
theorem slot_fpush_st7 (s : State) (v : F64) : slot (s.fpush v) (slotOf s 7) = v := by
  rw [slot_fpush, top_sub_one]
  exact if_pos rfl

/-- The values of ST(0) to ST(6) move up by one (R48). -/
theorem st_fpush_succ (s : State) (v : F64) {i : Nat} (hi : i < 7) :
    slot (s.fpush v) (slotOf (s.fpush v) (i + 1)) = slot s (slotOf s i) := by
  have hne : slotOf s i ≠ (s.fpuTop - 1).toNat := by
    rw [top_sub_one, slotOf]
    omega
  rw [slotOf_fpush, slot_fpush, if_neg hne]

/-- After any pushes, ST(i) is the value pushed `i` pushes before the last (R47, R48). -/
theorem st_foldl_fpush (s : State) (vs : List F64) : ∀ i : Nat, i < 8 → i < vs.length →
    slot (vs.foldl State.fpush s) (slotOf (vs.foldl State.fpush s) i) = vs.getD (vs.length - 1 - i) 0 := by
  induction vs using List.reverseRecOn with
  | nil => intro i _ hlen; exact absurd hlen (Nat.not_lt_zero i)
  | append_singleton l v ih =>
    intro i hi hlen
    rw [List.length_append, List.length_singleton] at hlen
    rw [List.foldl_append, List.foldl_cons, List.foldl_nil, List.length_append, List.length_singleton,
      Nat.add_sub_cancel]
    cases i with
    | zero => rw [st0_fpush, Nat.sub_zero, List.getD_append_right _ _ _ _ le_rfl, Nat.sub_self]; rfl
    | succ i =>
      rw [st_fpush_succ _ _ (by omega), ih i (by omega) (by omega), List.getD_append _ _ _ _ (by omega),
        Nat.sub_sub, Nat.add_comm 1]

/-- Settles O46: nine pushes lower TOP by nine, so the ninth value's slot, ST(0), is the one that was ST(7) at the
start, which the first push wrote. -/
theorem ninePushesWrap : Obligations.NinePushesWrap := by
  unfold Obligations.NinePushesWrap
  refine ⟨pushed_fpush, popped_fpop, ?_⟩
  intro s vs hlen t
  have hst : ∀ i : Nat, i < 8 → slot t (slotOf t i) = vs.getD (8 - i) 0 := fun i hi => by
    simpa [hlen] using st_foldl_fpush s vs i hi (by omega)
  have hring : slotOf s 7 = slotOf t 0 :=
    calc slotOf s 7 = slotOf t (7 + vs.length) := (slotOf_foldl_fpush vs s 7).symm
      _ = slotOf t (0 + 8 + 8) := by rw [hlen]
      _ = slotOf t 0 := by rw [slotOf_add_eight, slotOf_add_eight]
  refine ⟨?_, slot_fpush_st7 s _, hst⟩
  rw [hring]
  exact hst 0 (by decide)

end Sys2Proof.Proofs
end

section
/-! PROOFS. Family 20_memory: the bounds and the byte order of one access. -/

namespace Sys2Proof.Proofs

open Sys2Proof.Machine Sys2Proof.Claims Sys2Proof.Laws

theorem fits_iff (s : State) (a : Word) (n : Nat) : fits s a n = true ↔ a.toNat + n ≤ s.config.memSize :=
  decide_eq_true_iff

theorem not_fits_iff (s : State) (a : Word) (n : Nat) : fits s a n = false ↔ s.config.memSize < a.toNat + n :=
  decide_eq_false_iff_not.trans Nat.not_le

/-- Settles O18: the laws of one access at the width `8 * n`, whose byte count `8 * n / 8` is `n`. -/
theorem memoryAccess : Obligations.MemoryAccess := by
  unfold Obligations.MemoryAccess
  intro s a n v
  have hbytes : 8 * n / 8 = n := Nat.mul_div_cancel_left n (by decide)
  rw [← fits_iff, ← not_fits_iff]
  refine ⟨fun hin => ?_, fun hout => ?_⟩
  · have hfits : fits s a (8 * n / 8) = true := by rwa [hbytes]
    have hread := memRead_fits hfits
    have hwrite := memWrite_fits v hfits
    rw [hbytes] at hread hwrite
    exact ⟨hread, hwrite⟩
  · have hfits : fits s a (8 * n / 8) = false := by rwa [hbytes]
    have hread := memRead_not_fits hfits
    have hwrite := memWrite_not_fits v hfits
    rw [hbytes] at hread hwrite
    exact ⟨hread, hwrite⟩

end Sys2Proof.Proofs
end

section
/-! PROOFS. Family 30_encoding: what the scan of prefixes answers, and the decode state after a step. -/

namespace Sys2Proof.Proofs

open Sys2Proof.Machine Sys2Proof.Laws

/-! ### The scan of prefixes -/

/-- The bytes that R101 lists. -/
def prefixBytes : List Byte := [0x64, 0x65, 0x26, 0x2E, 0x36, 0x3E, 0x66, 0x67, 0xF0, 0xF2, 0xF3]

/-- The last byte of a sequence that is one of `l`. -/
def lastOf (l ps : List Byte) : Option Byte := (ps.filter fun b => decide (b ∈ l)).getLast?

/-- What a sequence of prefixes sets, each kind by its last byte (R101). -/
def prefixesOf (ps : List Byte) : Prefixes where
  seg := if lastOf [0x64, 0x65] ps = some 0x64 then .fs
    else if lastOf [0x64, 0x65] ps = some 0x65 then .gs else .none
  opsizeOverride := decide (0x66 ∈ ps)
  rep := if lastOf [0xF2, 0xF3] ps = some 0xF2 then .repne
    else if lastOf [0xF2, 0xF3] ps = some 0xF3 then .repe else .none

theorem isPrefixByte_eq (b : Byte) : isPrefixByte b = decide (b ∈ prefixBytes) := by
  revert b
  decide +kernel

theorem lastOf_concat (l ps : List Byte) (a : Byte) :
    lastOf l (ps ++ [a]) = if a ∈ l then some a else lastOf l ps := by
  unfold lastOf
  rw [List.filter_append, List.filter_singleton]
  by_cases ha : a ∈ l
  · simp [ha]
  · simp [ha]

/-- One more byte of the list does to the record what its row of R101 says. -/
theorem prefixEffect_prefixesOf {a : Byte} (ha : a ∈ prefixBytes) (ps : List Byte) :
    prefixEffect a (prefixesOf ps) = some (prefixesOf (ps ++ [a])) := by
  simp only [prefixBytes, List.mem_cons, List.not_mem_nil, or_false] at ha
  rcases ha with rfl | rfl | rfl | rfl | rfl | rfl | rfl | rfl | rfl | rfl | rfl <;>
    simp [prefixEffect, prefixesOf, lastOf_concat]

/-- The scan keeps the record of the prefixes it has read, and hands on the rest. -/
theorem scanPrefixes_prefixesOf {b : Byte} (hb : b ∉ prefixBytes) (rest ps : List Byte) :
    ∀ read : List Byte, (∀ p ∈ ps, p ∈ prefixBytes) →
      scanPrefixes (prefixesOf read) (ps ++ b :: rest) = (prefixesOf (read ++ ps), b :: rest) := by
  induction ps with
  | nil =>
    intro read _
    rw [List.nil_append, List.append_nil]
    exact scan_stop (isNone_of_not_prefix ((isPrefixByte_eq b).trans (decide_eq_false hb))) _ _
  | cons a ps ih =>
    intro read hps
    obtain ⟨ha, hps⟩ := List.forall_mem_cons.1 hps
    rw [List.cons_append, scan_cons (prefixEffect_prefixesOf ha read), ih _ hps, List.append_assoc,
      List.singleton_append]

/-- Settles O6: the scan starts with no prefixes read, where each kind is none. -/
theorem prefixScan : Obligations.PrefixScan := by
  unfold Obligations.PrefixScan
  intro _ _ ps b rest hps hb
  exact scanPrefixes_prefixesOf (of_decide_eq_false hb) rest ps [] fun p hp => of_decide_eq_true (hps p hp)

/-! ### The decode state between instructions -/

/-- Every end of a step goes through this, and what it does after touches none of these fields. -/
theorem clearDecode_idle (s : State) : s.clearDecode.idle := ⟨rfl, rfl, rfl, rfl, rfl⟩

theorem deliver_idle (s : State) (f : Fault) : (s.deliver f).idle := by
  rcases deliver_cases s f with hterminal | ⟨-, h, hhandled⟩
  · rw [hterminal]
    exact clearDecode_idle s
  · rw [hhandled]
    exact clearDecode_idle s

theorem interrupt_idle (s : State) (n : Byte) : (s.interrupt n).idle := by
  rcases interrupt_cases s n with hterminal | ⟨-, h, hhandled⟩
  · rw [hterminal]
    exact clearDecode_idle s
  · rw [hhandled]
    exact clearDecode_idle (({ s with eip := s.next } : State).applyHost h)

theorem ends_idle {s t : State} (h : Ends s t) : t.idle := by
  obtain ⟨u, a, -, rfl⟩ := h
  exact clearDecode_idle { u with eip := a }

/-- However an instruction ends, in a retirement or in a delivery, the decode state is clear (R55, R103). -/
theorem executed_idle {i : Instr} {s t : State} (h : Executed i s t) : t.idle := by
  cases h with
  | ended h => exact ends_idle h
  | halt _ u h ht =>
    have hu : u.idle := ends_idle h
    rw [ht]
    exact hu
  | fault f ht => rw [ht]; exact deliver_idle s f
  | repeated _ _ u _ f ht => rw [ht]; exact deliver_idle u f
  | interrupt _ n ht => rw [ht]; exact interrupt_idle s n

theorem step_idle {s t : State} (hrun : s.running) (h : step s = .next t) : t.idle := by
  cases step_cases h with
  | idle hh _ => exact absurd hh (ne_true_of_eq_false hrun.2)
  | fetchFault _ f _ ht => rw [ht]; exact deliver_idle s f
  | ran _ c next _ h => exact executed_idle h

/-- Settles O13: the three fields are the part of `State.idle` that R55 names. -/
theorem prefixStateIsReset : Obligations.PrefixStateIsReset := by
  unfold Obligations.PrefixStateIsReset
  intro s t hrun h
  obtain ⟨hseg, hosz, hrep, -, -⟩ := step_idle hrun h
  exact ⟨hseg, hosz, hrep⟩

end Sys2Proof.Proofs
end

section
/-! PROOFS. Family 46_x87_load_store: the conversion of an integer store. -/

namespace Sys2Proof.Proofs

open Sys2Proof.Machine Sys2Proof.Claims Sys2Proof.Laws

/-! ### Truncation -/

/-- A rational number without its fraction: its floor, or its ceiling below zero (R410). -/
def towardZero (x : ℚ) : Int := if 0 ≤ x then ⌊x⌋ else ⌈x⌉

theorem towardZero_of_nonneg {x : ℚ} (h : 0 ≤ x) : towardZero x = ⌊x⌋ := if_pos h

theorem towardZero_neg {x : ℚ} (h : 0 ≤ x) : towardZero (-x) = -⌊x⌋ := by
  rcases h.eq_or_lt with rfl | hpos
  · rfl
  · rw [towardZero, if_neg (not_le.2 (neg_neg_of_pos hpos)), Int.ceil_neg]

/-- A significand shifted by its exponent, to the left or to the right, is the floor of the magnitude. -/
theorem truncFinite_false (m : Nat) (q : Int) : truncFinite false m q = ⌊(m : ℚ) * 2 ^ q⌋ := by
  rw [truncFinite, if_neg Bool.false_ne_true]
  cases q with
  | ofNat n =>
    rw [Int.ofNat_eq_natCast, if_pos (Int.natCast_nonneg n), Int.toNat_natCast, Nat.shiftLeft_eq, zpow_natCast]
    exact_mod_cast (Int.floor_natCast (R := ℚ) (m * 2 ^ n)).symm
  | negSucc n =>
    have hright : (m : ℚ) * 2 ^ Int.negSucc n = m / (2 ^ (n + 1) : Nat) := by
      rw [zpow_negSucc, ← div_eq_mul_inv, Nat.cast_pow, Nat.cast_ofNat]
    rw [if_neg (Int.negSucc_not_nonneg n).1, hright, Rat.floor_natCast_div_natCast, ← Int.natCast_ediv,
      ← Nat.shiftRight_eq_div_pow]
    rfl

theorem truncFinite_true (m : Nat) (q : Int) : truncFinite true m q = -truncFinite false m q := rfl

theorem truncFinite_eq_towardZero (neg : Bool) (m : Nat) (q : Int) :
    truncFinite neg m q = towardZero ((if neg then -1 else 1) * (m : ℚ) * 2 ^ q) := by
  have hmag : (0 : ℚ) ≤ m * 2 ^ q := by positivity
  cases neg with
  | false => rw [if_neg Bool.false_ne_true, one_mul, towardZero_of_nonneg hmag, truncFinite_false]
  | true => rw [if_pos rfl, neg_one_mul, neg_mul, towardZero_neg hmag, truncFinite_true, truncFinite_false]

/-! ### The conversion -/

/-- An exponent field of all ones is an infinity or a NaN (R25). -/
theorem value64_not_finite {v : F64} (h : isFinite v = false) : value64 v = .inf v.msb ∨ value64 v = .nan := by
  have hexp : v.extractLsb' 52 11 = 0x7FF#11 := bne_eq_false_iff_eq.1 h
  rw [value64, fieldsValue, hexp, if_pos (show (0x7FF#11).toNat = 0x7FF from rfl)]
  exact ite_eq_or_eq ..

theorem intConv_not_finite {w : Nat} (overflow : BitVec w) {v : F64} (h : isFinite v = false) :
    intConv overflow v = overflow := by
  rcases value64_not_finite h with hv | hv <;> rw [intConv, hv]

theorem intConv_finite {w : Nat} (overflow : BitVec w) {v : F64} (h : isFinite v = true) :
    intConv overflow v =
      if towardZero (numeric v) < -2 ^ (w - 1) ∨ 2 ^ (w - 1) - 1 < towardZero (numeric v) then overflow
      else BitVec.ofInt w (towardZero (numeric v)) := by
  obtain ⟨m, q, hv, -, -⟩ := value64_finite h
  have htrunc : truncFinite v.msb m q = towardZero (numeric v) := by
    rw [truncFinite_eq_towardZero, numeric, hv]
  simp only [intConv, hv, htrunc, Int.sub_one_lt_iff]

/-- Settles O58: at every width, `intConv` compares and stores the truncation of the number the pattern stands for. -/
theorem integerConversionTruncates : Obligations.IntegerConversionTruncates := by
  unfold Obligations.IntegerConversionTruncates
  exact fun _ overflow _ _ => ⟨intConv_not_finite overflow, intConv_finite overflow⟩

end Sys2Proof.Proofs
end

section
/-! PROOFS. Encoding and decoding: the round trip, and what the decoder answers. -/

namespace Sys2Proof.Proofs

open Sys2Proof.Laws

theorem decode_of_scan {l body rest : List Byte} {p : Prefixes} {i : Instr} {o : Operands}
    (hscan : scanPrefixes noPrefixes l = (p, body))
    (hbody : decodeOpcode p.opsizeOverride body = .ok (i, o, rest)) : decode l = .ok (⟨i, p, o⟩, rest) := by
  simp only [decode, hscan, hbody]

theorem decode_encode {c : Code} (hwf : c.wf = true) (rest : List Byte) :
    decode (encode c ++ rest) = .ok (c, rest) := by
  obtain ⟨b, tail, hbody, hb⟩ := encodeBody_head c.instr c.prefixes.opsizeOverride c.ops
  have hscan : scanPrefixes noPrefixes (encode c ++ rest) =
      (c.prefixes, encodeBody c.instr c.prefixes.opsizeOverride c.ops ++ rest) := by
    rw [encode, List.append_assoc, hbody, List.cons_append, scan_encode hb]
  exact decode_of_scan hscan (decodeOpcode_encodeBody rest (rowReads_all c.instr) hwf)

/-- Settles O3: the scan reads back the prefixes, and every row's body is read back under the override they set. -/
theorem decodeOfEncode : Obligations.DecodeOfEncode := by
  unfold Obligations.DecodeOfEncode
  exact fun _ rest hwf => decode_encode hwf rest

theorem decode_ok_iff {l rest : List Byte} {c : Code} :
    decode l = .ok (c, rest) ↔ (scanPrefixes noPrefixes l).1 = c.prefixes ∧
      decodeOpcode c.prefixes.opsizeOverride (scanPrefixes noPrefixes l).2 = .ok (c.instr, c.ops, rest) := by
  refine ⟨fun h => ?_, fun ⟨hscan, hbody⟩ => decode_of_scan (Prod.ext hscan rfl) hbody⟩
  rw [decode] at h
  split at h
  case h_1 hbody =>
    cases h
    exact ⟨rfl, hbody⟩
  case h_2 => cases h

/-- Settles O4: the scan leaves a suffix, and the opcode's decoder takes at least a byte of it. -/
theorem decodedIsWellFormed : Obligations.DecodedIsWellFormed := by
  unfold Obligations.DecodedIsWellFormed
  intro bytes rest c h
  obtain ⟨-, hbody⟩ := decode_ok_iff.1 h
  obtain ⟨hwf, b, l, hl, used, hrest⟩ := decodeOpcode_ok hbody
  obtain ⟨scanned, hscan⟩ := scan_suffix bytes noPrefixes
  refine ⟨hwf, scanned ++ b :: used, by simp, ?_⟩
  rw [← hscan, hl, ← hrest, List.append_assoc, List.cons_append]

/-- Settles O5: the decoder run on each of the words. -/
theorem decodeWords : Obligations.DecodeWords := by
  unfold Obligations.DecodeWords
  refine ⟨?_, ?_, ?_, ?_, ?_, ?_, ?_, ?_, ?_, ?_, ?_, ?_, ?_⟩ <;> rfl

end Sys2Proof.Proofs
end

section
/-! PROOFS. The step: what it runs, and the faults of fetching. -/

namespace Sys2Proof.Proofs

open Sys2Proof.Machine Sys2Proof.Claims Sys2Proof.Laws

/-- Settles O2: an empty memory is canonical and inside any bounds, and the default parameters are well formed. -/
theorem resetMeetsInvariants : Obligations.ResetMeetsInvariants := by
  unfold Obligations.ResetMeetsInvariants
  have hmem : State.reset.memOk := ⟨⟨List.Pairwise.nil, fun _ hc => nomatch hc⟩, fun _ hc => nomatch hc⟩
  exact ⟨⟨hmem, rfl, rfl, rfl, rfl, rfl, rfl⟩, ⟨rfl, rfl⟩, by decide⟩

/-! ### What a step runs -/

theorem step_of_halted {s : State} (hterm : s.terminal = none) (hhalt : s.halted = true) : step s = .next s := by
  unfold step
  rw [hterm]
  exact if_pos hhalt

theorem step_of_terminal {s : State} {f : Fault} (hterm : s.terminal = some f) : step s = .fault f := by
  unfold step
  rw [hterm]

/-- Settles O7. -/
theorem stepRunsDecoded : Obligations.StepRunsDecoded := by
  unfold Obligations.StepRunsDecoded
  exact fun _ => ⟨fun _ _ => step_of_code, step_of_halted, fun _ => step_of_terminal⟩

/-- The bytes of `l` lie in memory from `eip` on (R72, R100). -/
def Stands (s : State) (l : List Byte) : Prop :=
  ∀ k : Nat, k < l.length →
    fits s (s.eip + BitVec.ofNat 32 k) 1 = true ∧ s.mem.read (s.eip + BitVec.ofNat 32 k).toNat = l.getD k 0

theorem fetchByte_fits {s : State} {p : Word} (h : fits s p 1 = true) :
    fetchByte s p = some (s.mem.read p.toNat) := by
  rw [fetchByte, inBounds_eq, if_pos h]

theorem fetchByte_not_fits {s : State} {p : Word} (h : fits s p 1 = false) : fetchByte s p = none := by
  rw [fetchByte, inBounds_eq, if_neg (ne_true_of_eq_false h)]

theorem Stands.bytesAt {s : State} {l : List Byte} (h : Stands s l) : BytesAt s s.eip l := by
  intro k hk
  obtain ⟨hfits, hread⟩ := h k hk
  rw [fetchByte_fits hfits, hread]

theorem fetch_encode {s : State} {c : Code} (hwf : c.wf = true) (h : Stands s (encode c)) :
    fetch s = .code c (s.eip + BitVec.ofNat 32 (encode c).length) := by
  obtain ⟨b, tail, hbody, hb⟩ := encodeBody_head c.instr c.prefixes.opsizeOverride c.ops
  have hcode : encode c = encodePrefixes c.prefixes ++ b :: tail := by rw [encode, hbody]
  have hprefix : isPrefixByte b = false := by rw [isPrefixByte, Option.isSome_eq_false_iff.2 hb]
  have htail : tail.length < maxBody := by
    have hlen := encodeBody_length c.instr c.prefixes.opsizeOverride c.ops
    rw [hbody, List.length_cons] at hlen
    exact hlen
  obtain ⟨hlen, hall⟩ := encodePrefixes_length c.prefixes
  have hbytes := h.bytesAt
  have hdecode := fun rest => decode_encode hwf rest
  rw [hcode] at hbytes hdecode ⊢
  exact fetch_of_bytes hbytes hall hprefix hlen htail hdecode

/-- Settles O8: what stands at `eip` is what is fetched and decoded. -/
theorem stepRunsEncoded : Obligations.StepRunsEncoded := by
  unfold Obligations.StepRunsEncoded
  exact fun _ _ hrun hwf hstands => step_of_code hrun (fetch_encode hwf hstands)

/-! ### Delivery -/

theorem goesToHandler_iff (f : Fault) : f.goesToHandler = true ↔ f.code ≤ 8 := by
  cases f <;> simp [Fault.goesToHandler, Fault.code]

/-- Delivery is what the vocabulary of the statements calls taking a fault (R510, R520, R521). -/
theorem faultTaken_deliver (s : State) (f : Fault) : FaultTaken s f (s.deliver f) := by
  have hcond : (s.config.excHandler && f.goesToHandler) = true ↔ s.config.excHandler = true ∧ f.code ≤ 8 := by
    rw [Bool.and_eq_true, goesToHandler_iff]
  by_cases h : s.config.excHandler = true ∧ f.code ≤ 8
  · have hdeliver : s.deliver f = s.clearDecode.applyHost (hostException s.draws f s.clearDecode) :=
      if_pos (hcond.2 h)
    rw [FaultTaken, if_pos h, hdeliver]
    exact ⟨applyHost_left s.clearDecode _ (clearDecode_idle s), rfl⟩
  · rw [FaultTaken, if_neg h]
    exact if_neg (mt hcond.1 h)

/-- The step takes the fault `f`. -/
def TakesFault (s : State) (f : Fault) : Prop := ∃ t : State, step s = .next t ∧ FaultTaken s f t

theorem takesFault_of_fetch {s : State} {f : Fault} (hrun : s.running) (h : fetch s = .fault f) : TakesFault s f :=
  ⟨_, step_of_fault hrun h, faultTaken_deliver s f⟩

/-! ### Bytes that memory cuts off -/

theorem isPrefixByte_of_mem {ps : List Byte} (h : ∀ p ∈ ps, p ∈ prefixBytes) : ∀ p ∈ ps, isPrefixByte p = true :=
  fun p hp => (isPrefixByte_eq p).trans (decide_eq_true (h p hp))

theorem takesFault_truncated {s : State} {l : List Byte} (hrun : s.running) (h : Stands s l)
    (hend : fits s (s.eip + BitVec.ofNat 32 l.length) 1 = false) (hlt : l.length < 2 ^ 32)
    (hlen : l.length ≤ (l.takeWhile isPrefixByte).length + maxBody) (hd : decode l = .error .truncated) :
    TakesFault s (.memoryFault (s.eip + BitVec.ofNat 32 l.length) 1 s.config.memSize s.eip) :=
  takesFault_of_fetch hrun (fetch_truncated h.bytesAt (fetchByte_not_fits hend) hlt hlen hd)

theorem decode_take_encode {c : Code} {k : Nat} (hwf : c.wf = true) (hk : k < (encode c).length) :
    decode ((encode c).take k) = .error .truncated := by
  refine decode_cut (x := (encode c).drop k) (c := c) ?_ (List.ne_nil_of_length_pos ?_)
  · rw [List.take_append_drop, ← List.append_nil (encode c)]
    exact decode_encode hwf []
  · rw [List.length_drop]
    exact Nat.sub_pos_of_lt hk

theorem length_encode_lt (c : Code) : (encode c).length < 2 ^ 32 := by
  have hbody := encodeBody_length c.instr c.prefixes.opsizeOverride c.ops
  have hprefixes := (encodePrefixes_length c.prefixes).1
  rw [maxBody] at hbody
  rw [encode, List.length_append]
  omega

/-- No cut of an encoding has more than a body behind its prefixes (R106). -/
theorem length_take_encode_le (c : Code) (k : Nat) :
    ((encode c).take k).length ≤ (((encode c).take k).takeWhile isPrefixByte).length + maxBody := by
  have hall : ∀ b ∈ (encodePrefixes c.prefixes).take k, isPrefixByte b = true := fun b hb =>
    (encodePrefixes_length c.prefixes).2 b (List.mem_of_mem_take hb)
  have hbody : (List.take (k - (encodePrefixes c.prefixes).length)
      (encodeBody c.instr c.prefixes.opsizeOverride c.ops)).length ≤ maxBody :=
    (List.length_take_le' _ _).trans (encodeBody_length ..)
  rw [encode, List.take_append, List.takeWhile_append_of_pos hall, List.length_append, List.length_append]
  omega

theorem decode_only_prefixes {ps : List Byte} (h : ∀ p ∈ ps, isPrefixByte p = true) :
    decode ps = .error .truncated := by
  obtain ⟨_, _, _, hscan⟩ := scan_prefixes noPrefixes h
  simp only [decode, hscan, decodeOpcode]

theorem length_prefixes_lt {s : State} {ps : List Byte} (h : Stands s ps) (hps : ∀ p ∈ ps, isPrefixByte p = true)
    (hend : fits s (s.eip + BitVec.ofNat 32 ps.length) 1 = false) : ps.length < 2 ^ 32 :=
  prefixes_short h.bytesAt hps fun _ hb => by
    rw [fetchByte_not_fits hend] at hb
    cases hb

/-! ### Bytes that are no instruction -/

theorem takesFault_decodeOpcode {s : State} {ps tail : List Byte} {b : Byte} {e : DecodeError} (hrun : s.running)
    (hps : ∀ p ∈ ps, p ∈ prefixBytes) (h : Stands s (ps ++ b :: tail)) (hb : b ∉ prefixBytes)
    (htail : tail.length < maxBody) (he : e ≠ .truncated)
    (hd : decodeOpcode (decide ((0x66 : Byte) ∈ ps)) (b :: tail) = .error e) : TakesFault s (decodeFault s 0 e) :=
  takesFault_of_fetch hrun (fetch_error h.bytesAt (isPrefixByte_of_mem hps)
    ((isPrefixByte_eq b).trans (decide_eq_false hb)) htail he hd)

theorem decodeOpcode_one {osz : Bool} {b : Byte} {tail : List Byte} (h : b ≠ 0x0F) :
    decodeOpcode osz (b :: tail) = decodeKey (.one b) b (primary b) osz tail := by
  simp only [decodeOpcode, if_neg h]

theorem decodeOpcode_two (osz : Bool) (b : Byte) (tail : List Byte) :
    decodeOpcode osz (0x0F :: b :: tail) = decodeKey (.two b) b (secondary b) osz tail := rfl

theorem decodeKey_unlisted {key : OpKey} {b : Byte} {e : Option Entry} {osz : Bool} {tail : List Byte}
    (h : e.isSome = false) : decodeKey key b e osz tail = .error (.unknownOpcode key) := by
  rw [Option.not_isSome_iff_eq_none.1 (ne_true_of_eq_false h)]
  rfl

theorem decodeKey_narrow {key : OpKey} {b : Byte} {e : Option Entry} {tail : List Byte} (h : e.isSome = true)
    (h16 : honours16 key = false) : decodeKey key b e true tail = .error (.unsupportedOperandSize key) := by
  obtain ⟨e, rfl⟩ := Option.isSome_iff_exists.1 h
  simp only [decodeKey, h16, Bool.not_false, Bool.and_self, if_true]

theorem decodeKey_some {key : OpKey} {b : Byte} {e : Entry} {osz : Bool} {tail : List Byte}
    (h16 : osz = true → honours16 key = true) :
    decodeKey key b (some e) osz tail = decodeEntry key b e osz tail := by
  have hosz : (osz && !honours16 key) = false := by
    cases osz with
    | false => rfl
    | true => rw [h16 rfl]; rfl
  rw [decodeKey, hosz]
  rfl

/-- The opcode's entry has no row for the ModRM byte `m` (R122, R142). -/
def lacksRow (e : Option Entry) (m : Byte) : Bool :=
  match e with
  | some (.group g) => (g (regField m)).isNone
  | some (.x87 mems regs) =>
    (if modField m = 3 then regs (regField m) (rmField m) else mems (regField m)).isNone
  | _ => false

theorem decodeKey_lacksRow {key : OpKey} {b m : Byte} {e : Option Entry} {osz : Bool} {tail : List Byte}
    (h : lacksRow e m = true) (h16 : osz = true → honours16 key = true) :
    decodeKey key b e osz (m :: tail) = .error (.unsupportedGroupExtension key m) := by
  unfold lacksRow at h
  split at h
  case h_1 => rw [decodeKey_some h16, decodeEntry, Option.isNone_iff_eq_none.1 h]
  case h_2 => simp only [decodeKey_some h16, decodeEntry, Option.isNone_iff_eq_none.1 h]
  case h_3 => cases h

/-- The opcode's entry needs a memory operand (R123). -/
def needsMemory (e : Option Entry) : Bool :=
  match e with
  | some (.mem _) => true
  | _ => false

theorem decodeKey_register_form {key : OpKey} {b m : Byte} {e : Option Entry} {osz : Bool} {tail : List Byte}
    (h : needsMemory e = true) (hm : modField m = 3) (h16 : osz = true → honours16 key = true) :
    decodeKey key b e osz (m :: tail) = .error (.unsupportedAddressingForm key m) := by
  unfold needsMemory at h
  split at h
  case h_1 => simp only [decodeKey_some h16, decodeEntry, hm, if_true]
  case h_2 => cases h

/-! ### The tables of the encoding (R105, R122, R123, R140 to R142) -/

def unlistedBytes : List Byte :=
  [0x06, 0x07, 0x0E, 0x16, 0x17, 0x1E, 0x1F, 0x27, 0x2F, 0x37, 0x3F, 0x62, 0x63, 0x6C, 0x6D, 0x6E, 0x6F,
    0x82, 0x86, 0x87, 0x8C, 0x8E, 0x91, 0x92, 0x93, 0x94, 0x95, 0x96, 0x97, 0x9A, 0x9C] ++
    [0x9D, 0x9E, 0x9F, 0xC8, 0xCA, 0xCB, 0xCE, 0xCF, 0xD4, 0xD5, 0xD6, 0xD7, 0xE0, 0xE1, 0xE2, 0xE3, 0xE4,
    0xE5, 0xE6, 0xE7, 0xEA, 0xEC, 0xED, 0xEE, 0xEF, 0xF1, 0xFA, 0xFB]

def listed0F (b : Byte) : Bool :=
  b ∈ [0x1F, 0xAF, 0xB2, 0xB4, 0xB5, 0xB6, 0xB7, 0xBC, 0xBD, 0xBE, 0xBF] ||
    0x40 ≤ b.toNat && b.toNat ≤ 0x4F || 0x80 ≤ b.toNat && b.toNat ≤ 0x9F

def honouringBytes : List Byte :=
  [0x89, 0x8B, 0x90, 0xA1, 0xA3, 0xB8, 0xB9, 0xBA, 0xBB, 0xBC, 0xBD, 0xBE, 0xBF, 0xC7]

def groupRows : List (Byte × List Nat) :=
  [(0x8F, [0]), (0xC0, [0, 1, 2, 3, 4, 5, 7]), (0xC1, [0, 1, 2, 3, 4, 5, 7]), (0xC6, [0]), (0xC7, [0]),
    (0xD0, [0, 1, 2, 3, 4, 5, 7]), (0xD1, [0, 1, 2, 3, 4, 5, 7]), (0xD2, [0, 1, 2, 3, 4, 5, 7]),
    (0xD3, [0, 1, 2, 3, 4, 5, 7]), (0xF6, [0, 2, 3, 4, 5, 6, 7]), (0xF7, [0, 2, 3, 4, 5, 6, 7]),
    (0xFE, [0, 1]), (0xFF, [0, 1, 2, 4, 6])]

def x87MemoryRows : List (Byte × List Nat) :=
  [(0xD9, [0, 2, 3, 5, 7]), (0xDB, [0, 2, 3, 5, 7]), (0xDD, [0, 2, 3, 7]), (0xDF, [0, 2, 3, 5, 7])]

def x87RegisterRows : List (Byte × List (Nat × Nat)) :=
  [(0xD9, [(0xC0, 0xCF), (0xD0, 0xD0), (0xE0, 0xE1), (0xE4, 0xE4), (0xE8, 0xEE), (0xF6, 0xF7), (0xFA, 0xFA)]),
    (0xDA, [(0xC0, 0xDF), (0xE9, 0xE9)]), (0xDB, [(0xC0, 0xDF), (0xE2, 0xE3), (0xE8, 0xF7)]),
    (0xDC, [(0xC0, 0xCF), (0xE0, 0xFF)]), (0xDD, [(0xC0, 0xC7), (0xD0, 0xEF)]),
    (0xDE, [(0xC0, 0xCF), (0xD9, 0xD9), (0xE0, 0xFF)]), (0xDF, [(0xE0, 0xE0), (0xE8, 0xF7)])]

/-- The one-byte opcodes, byte by byte: which the tables list, and which honour 0x66 (R105, R140). -/
theorem oneByte_tables :
    (∀ b ∈ unlistedBytes, b ∉ prefixBytes ∧ b ≠ 0x0F ∧ (primary b).isSome = false) ∧
      (∀ b : Byte, b ∉ prefixBytes → b ∉ unlistedBytes → b ≠ 0x0F → (primary b).isSome = true) ∧
      ∀ b : Byte, honours16 (.one b) = decide (b ∈ honouringBytes) := by
  decide +kernel

/-- The same of the 0F opcodes (R105, R141). -/
theorem twoByte_tables :
    (∀ b : Byte, (secondary b).isSome = listed0F b) ∧ ∀ b : Byte, honours16 (.two b) = decide (b = 0x1F) := by
  decide +kernel

/-- The ModRM bytes that select no row of their opcode (R142). -/
theorem lacksRow_tables :
    (∀ g ∈ groupRows, g.1 ∉ prefixBytes ∧ g.1 ≠ 0x0F ∧
      ∀ m : Byte, m.toNat / 8 % 8 ∉ g.2 → lacksRow (primary g.1) m = true) ∧
    (∀ m : Byte, m.toNat / 8 % 8 ≠ 0 → lacksRow (secondary 0x1F) m = true) ∧
    (∀ g ∈ x87MemoryRows, g.1 ∉ prefixBytes ∧ g.1 ≠ 0x0F ∧
      ∀ m : Byte, m.toNat < 0xC0 → m.toNat / 8 % 8 ∉ g.2 → lacksRow (primary g.1) m = true) ∧
    ∀ g ∈ x87RegisterRows, g.1 ∉ prefixBytes ∧ g.1 ≠ 0x0F ∧
      ∀ m : Byte, 0xC0 ≤ m.toNat → (∀ r ∈ g.2, ¬(r.1 ≤ m.toNat ∧ m.toNat ≤ r.2)) →
        lacksRow (primary g.1) m = true := by
  decide +kernel

/-- The opcodes that have no register form, and the ModRM bytes that are one (R123). -/
theorem registerForm_tables :
    (∀ b ∈ ([0x8D, 0xC4, 0xC5] : List Byte), b ∉ prefixBytes ∧ b ≠ 0x0F ∧ needsMemory (primary b) = true) ∧
      (∀ b ∈ ([0xB2, 0xB4, 0xB5] : List Byte), needsMemory (secondary b) = true) ∧
      ∀ m : Byte, 0xC0 ≤ m.toNat → modField m = 3 := by
  decide +kernel

/-! ### Faults by clause -/

section
variable {s : State} {ps : List Byte} (hrun : s.running) (hps : ∀ p ∈ ps, p ∈ prefixBytes)
include hrun hps

theorem takesFault_one {b : Byte} {tail : List Byte} {e : DecodeError} (hb : b ∉ prefixBytes ∧ b ≠ 0x0F)
    (h : Stands s (ps ++ b :: tail)) (htail : tail.length ≤ 1)
    (hd : decodeKey (.one b) b (primary b) (decide ((0x66 : Byte) ∈ ps)) tail = .error e) (he : e ≠ .truncated) :
    TakesFault s (decodeFault s 0 e) :=
  takesFault_decodeOpcode hrun hps h hb.1 (htail.trans_lt (by decide)) he ((decodeOpcode_one hb.2).trans hd)

theorem takesFault_two {b : Byte} {tail : List Byte} {e : DecodeError}
    (h : Stands s (ps ++ 0x0F :: b :: tail)) (htail : tail.length ≤ 1)
    (hd : decodeKey (.two b) b (secondary b) (decide ((0x66 : Byte) ∈ ps)) tail = .error e) (he : e ≠ .truncated) :
    TakesFault s (decodeFault s 0 e) :=
  takesFault_decodeOpcode hrun hps h (by decide) ((Nat.succ_le_succ htail).trans_lt (by decide)) he hd

end

/-- The operand-size prefix is absent, so nothing hangs on the opcode's honouring it (R105). -/
theorem honours_of_narrow {ps : List Byte} {key : OpKey} (h : (0x66 : Byte) ∉ ps) :
    decide ((0x66 : Byte) ∈ ps) = true → honours16 key = true :=
  fun hw => absurd (of_decide_eq_true hw) h

/-- Settles O9: each clause by what the decoder answers on the bytes it names. -/
theorem fetchFaults : Obligations.FetchFaults := by
  unfold Obligations.FetchFaults
  intro _ _ _ _ _ _ _ _ s hrun _ _ _
  obtain ⟨hunlisted, hprimary, hhonours1⟩ := oneByte_tables
  obtain ⟨hsecondary, hhonours2⟩ := twoByte_tables
  obtain ⟨hgroup, hnopGroup, hx87Memory, hx87Register⟩ := lacksRow_tables
  obtain ⟨hprimaryMem, hsecondaryMem, hregister⟩ := registerForm_tables
  refine ⟨fun c k hwf hk h hend => ?_, fun ps hps => ⟨fun h hend => ?_, fun b hb h => ?_, fun b hb h => ?_,
    fun hwide b hprefix hlisted hb hhonours h => ?_, fun hwide b hlisted hb h => ?_, fun g hg hwide m hm h => ?_,
    fun m hm h => ?_, fun hnarrow g hg m hmem hm h => ?_, fun hnarrow g hg m hreg hm h => ?_,
    fun hnarrow b hb m hreg h => ?_, fun hnarrow b hb m hreg h => ?_⟩⟩
  · have hlen : ((encode c).take k).length = k := List.length_take_of_le hk.le
    have hfault := takesFault_truncated hrun h (by rwa [hlen]) (hlen.trans_lt (hk.trans (length_encode_lt c)))
      (length_take_encode_le c k) (decode_take_encode hwf hk)
    rwa [hlen] at hfault
  · have hall := isPrefixByte_of_mem hps
    refine takesFault_truncated hrun h hend (length_prefixes_lt h hall hend) ?_ (decode_only_prefixes hall)
    rw [List.takeWhile_eq_self_iff.2 hall]
    exact Nat.le_add_right _ _
  · obtain ⟨hp, h0F, hnone⟩ := hunlisted b hb
    exact takesFault_one hrun hps ⟨hp, h0F⟩ h (Nat.zero_le 1) (decodeKey_unlisted hnone) nofun
  · exact takesFault_two hrun hps h (Nat.zero_le 1) (decodeKey_unlisted ((hsecondary b).trans hb)) nofun
  · refine takesFault_one (e := .unsupportedOperandSize (.one b)) hrun hps ⟨hprefix, hb⟩ h (Nat.zero_le 1) ?_ nofun
    rw [decide_eq_true hwide]
    exact decodeKey_narrow (hprimary b hprefix hlisted hb)
      ((hhonours1 b).trans (decide_eq_false hhonours))
  · refine takesFault_two (e := .unsupportedOperandSize (.two b)) hrun hps h (Nat.zero_le 1) ?_ nofun
    rw [decide_eq_true hwide]
    exact decodeKey_narrow ((hsecondary b).trans hlisted) ((hhonours2 b).trans (decide_eq_false hb))
  · obtain ⟨hp, h0F, hlacks⟩ := hgroup g hg
    refine takesFault_one hrun hps ⟨hp, h0F⟩ h le_rfl (decodeKey_lacksRow (hlacks m hm) fun hw => ?_) nofun
    exact (hhonours1 g.1).trans (decide_eq_true (hwide (of_decide_eq_true hw)))
  · exact takesFault_two hrun hps h le_rfl
      (decodeKey_lacksRow (hnopGroup m hm) fun _ => hhonours2 0x1F) nofun
  · obtain ⟨hp, h0F, hlacks⟩ := hx87Memory g hg
    exact takesFault_one hrun hps ⟨hp, h0F⟩ h le_rfl
      (decodeKey_lacksRow (hlacks m hmem hm) (honours_of_narrow hnarrow)) nofun
  · obtain ⟨hp, h0F, hlacks⟩ := hx87Register g hg
    exact takesFault_one hrun hps ⟨hp, h0F⟩ h le_rfl
      (decodeKey_lacksRow (hlacks m hreg hm) (honours_of_narrow hnarrow)) nofun
  · obtain ⟨hp, h0F, hneeds⟩ := hprimaryMem b hb
    exact takesFault_one hrun hps ⟨hp, h0F⟩ h le_rfl
      (decodeKey_register_form hneeds (hregister m hreg) (honours_of_narrow hnarrow)) nofun
  · exact takesFault_two hrun hps h le_rfl
      (decodeKey_register_form (hsecondaryMem b hb) (hregister m hreg)
        (honours_of_narrow hnarrow)) nofun

end Sys2Proof.Proofs
end

section
/-! PROOFS. Every step: what it keeps, what it counts, and that a fault is precise. -/

namespace Sys2Proof.Proofs

open Sys2Proof.Machine Sys2Proof.Claims Sys2Proof.Laws

/-! ### Properties a step keeps -/

/-- A property of states that every move a step is made of keeps. -/
structure Kept (P : State → Prop) : Prop where
  enter : ∀ (s : State) (c : Code) (a : Word), P s → P (s.enter c a)
  work : ∀ {s u : State}, Worked s u → P s → P u
  jump : ∀ (s : State) (a : Word), P s → P (s.jump a)
  halt : ∀ s : State, P s → P { s with halted := true }
  deliver : ∀ (s : State) (f : Fault), P s → P (s.deliver f)
  interrupt : ∀ (s : State) (n : Byte), P s → P (s.interrupt n)

theorem Kept.ends {P : State → Prop} (hP : Kept P) {s t : State} (h : Ends s t) (hs : P s) : P t := by
  obtain ⟨u, a, hw, rfl⟩ := h
  exact hP.jump u a (hP.work hw hs)

theorem Kept.executed {P : State → Prop} (hP : Kept P) {i : Instr} {s t : State} (h : Executed i s t) (hs : P s) :
    P t := by
  cases h with
  | ended h => exact hP.ends h hs
  | halt _ u h ht => rw [ht]; exact hP.halt u (hP.ends h hs)
  | fault f ht => rw [ht]; exact hP.deliver s f hs
  | repeated _ _ u hw f ht => rw [ht]; exact hP.deliver u f (hP.work hw hs)
  | interrupt _ n ht => rw [ht]; exact hP.interrupt s n hs

theorem Kept.step {P : State → Prop} (hP : Kept P) {s t : State} (h : step s = .next t) (hs : P s) : P t := by
  cases step_cases h with
  | idle _ ht => rwa [ht]
  | fetchFault _ f _ ht => rw [ht]; exact hP.deliver s f hs
  | ran _ c next _ h => exact hP.executed h (hP.enter s c next hs)

theorem kept_memOk : Kept State.memOk where
  enter _ _ _ hs := hs
  work hw hs := hw.memory hs
  jump _ _ hs := hs
  halt _ hs := hs
  deliver s f hs := by
    rcases deliver_cases s f with ht | ⟨-, h, ht⟩
    · rw [ht]; exact hs
    · rw [ht]; exact applyHost_memOk s.clearDecode h
  interrupt s n hs := by
    rcases interrupt_cases s n with ht | ⟨-, h, ht⟩
    · rw [ht]; exact hs
    · rw [ht]; exact applyHost_memOk { s with eip := s.next } h

/-- Settles O11: work stores only inside memory, and what a handler leaves is cut to it. -/
theorem memoryStaysInBounds : Obligations.MemoryStaysInBounds := by
  unfold Obligations.MemoryStaysInBounds
  exact fun _ _ hs h => kept_memOk.step h hs

theorem kept_topSynced : Kept State.topSynced where
  enter _ _ _ hs := hs
  work hw hs := hw.top hs
  jump _ _ hs := hs
  halt _ hs := hs
  deliver s f hs := by
    rcases deliver_cases s f with ht | ⟨-, h, ht⟩
    · rw [ht]; exact hs
    · rw [ht]; exact applyHost_topSynced s.clearDecode h
  interrupt s n hs := by
    rcases interrupt_cases s n with ht | ⟨-, h, ht⟩
    · rw [ht]; exact hs
    · rw [ht]; exact applyHost_topSynced { s with eip := s.next } h

/-- Settles O12: work moves TOP with `fpu_top`, and a handler's TOP is set to its `fpu_top`. -/
theorem topFieldFollowsTop : Obligations.TopFieldFollowsTop := by
  unfold Obligations.TopFieldFollowsTop
  exact fun _ _ hs h => kept_topSynced.step h hs

/-! ### Without handlers -/

theorem interrupt_terminal {s : State} (n : Byte) (h : s.config.intHandler = false) :
    s.interrupt n = { s.clearDecode with terminal := some (.unhandledInterrupt n s.eip) } := by
  rcases interrupt_cases s n with ht | ⟨hint, -⟩
  · exact ht
  · rw [h] at hint
    cases hint

/-- No handler is installed, and the inert flag bits are those of `s` (R41). -/
def InertAs (s u : State) : Prop :=
  u.config.excHandler = false ∧ u.config.intHandler = false ∧ FlagsSameBut [0, 6, 7, 10, 11] s u

theorem kept_inertAs (s : State) : Kept (InertAs s) where
  enter _ _ _ h := h
  work hw h := by
    obtain ⟨hexc, hint, hflags⟩ := h
    refine ⟨?_, ?_, fun k hk => (hw.flags k hk).trans (hflags k hk)⟩
    · rwa [hw.config]
    · rwa [hw.config]
  jump _ _ h := h
  halt _ h := h
  deliver u f h := by rw [deliver_terminal f h.1]; exact h
  interrupt u n h := by rw [interrupt_terminal n h.2.1]; exact h

/-- Settles O14. -/
theorem inertFlagsStay : Obligations.InertFlagsStay := by
  unfold Obligations.InertFlagsStay
  intro s t hexc hint h
  obtain ⟨-, -, hflags⟩ := (kept_inertAs s).step h ⟨hexc, hint, fun _ _ => rfl⟩
  exact hflags

/-! ### The count -/

/-- `t` ends a step from `s`: completed and counted, or terminal and not counted (R54, R510). -/
def Counted (s t : State) : Prop :=
  (t.terminal = none → t.instrCount = s.instrCount + 1) ∧ (t.terminal ≠ none → t.instrCount = s.instrCount)

theorem counted_of_completed {s t : State} (hterm : t.terminal = none) (hcount : t.instrCount = s.instrCount + 1) :
    Counted s t :=
  ⟨fun _ => hcount, fun h => absurd hterm h⟩

theorem counted_of_terminal {s t : State} (hterm : t.terminal ≠ none) (hcount : t.instrCount = s.instrCount) :
    Counted s t :=
  ⟨fun h => absurd h hterm, fun _ => hcount⟩

theorem counted_deliver {s u : State} (f : Fault) (hexc : u.config.excHandler = false)
    (hcount : u.instrCount = s.instrCount) : Counted s (u.deliver f) := by
  rw [deliver_terminal f hexc]
  exact counted_of_terminal (Option.some_ne_none f) hcount

theorem ends_terminal {s t : State} (h : Ends s t) : t.terminal = s.terminal := by
  obtain ⟨u, a, hw, rfl⟩ := h
  exact hw.terminal

theorem ends_count {s t : State} (h : Ends s t) : t.instrCount = s.instrCount + 1 := by
  obtain ⟨u, a, hw, rfl⟩ := h
  exact congrArg (· + 1) hw.count

theorem executed_counted {i : Instr} {s t : State} (hterm : s.terminal = none) (hexc : s.config.excHandler = false)
    (h : Executed i s t) : Counted s t := by
  cases h with
  | ended h => exact counted_of_completed ((ends_terminal h).trans hterm) (ends_count h)
  | halt _ u h ht => rw [ht]; exact counted_of_completed ((ends_terminal h).trans hterm) (ends_count h :)
  | fault f ht => rw [ht]; exact counted_deliver f hexc rfl
  | repeated _ _ u hw f ht => rw [ht]; exact counted_deliver f (by rwa [hw.config]) hw.count
  | interrupt _ n ht =>
    rw [ht]
    rcases interrupt_cases s n with hint | ⟨-, h, hint⟩
    · rw [hint]
      exact counted_of_terminal (Option.some_ne_none _) rfl
    · rw [hint]
      exact counted_of_completed hterm rfl

/-- Settles O15. -/
theorem countOfCompletedSteps : Obligations.CountOfCompletedSteps := by
  unfold Obligations.CountOfCompletedSteps
  intro s t hrun hexc h
  have hcounted : Counted s t := by
    cases step_cases h with
    | idle hh _ => exact absurd hh (ne_true_of_eq_false hrun.2)
    | fetchFault _ f _ ht => rw [ht]; exact counted_deliver f hexc rfl
    | ran _ c next _ h => exact executed_counted (s := s.enter c next) hrun.1 hexc h
  exact hcounted

/-! ### Halting -/

theorem deliver_halted {s : State} (f : Fault) (hexc : s.config.excHandler = false) :
    (s.deliver f).halted = s.halted := by
  rw [deliver_terminal f hexc]
  rfl

theorem ends_halted {s t : State} (h : Ends s t) : t.halted = s.halted := by
  obtain ⟨u, a, hw, rfl⟩ := h
  exact hw.halted

theorem executed_halted {i : Instr} {s t : State} (hexc : s.config.excHandler = false)
    (hint : s.config.intHandler = false) (h : Executed i s t) : i = .hlt ∨ t.halted = s.halted := by
  cases h with
  | ended h => exact .inr (ends_halted h)
  | halt hi _ _ _ => exact .inl hi
  | fault f ht => exact .inr (by rw [ht]; exact deliver_halted f hexc)
  | repeated _ _ u hw f ht =>
    refine .inr ?_
    rw [ht, deliver_halted f (by rwa [hw.config])]
    exact hw.halted
  | interrupt _ n ht => exact .inr (by rw [ht, interrupt_terminal n hint]; rfl)

/-- Settles O16. -/
theorem onlyHltHalts : Obligations.OnlyHltHalts := by
  unfold Obligations.OnlyHltHalts
  intro s t hrun hexc hint h hhalted
  have hne : t.halted ≠ s.halted := by rw [hhalted, hrun.2]; exact Bool.noConfusion
  cases step_cases h with
  | idle _ ht => exact absurd (congrArg State.halted ht) hne
  | fetchFault _ f _ ht => exact absurd (by rw [ht]; exact deliver_halted f hexc) hne
  | ran _ c next hc h => exact ⟨c, next, hc, (executed_halted (s := s.enter c next) hexc hint h).resolve_right hne⟩

/-! ### Precision -/

/-- A delivery that ends in the terminal state changed nothing else but the decode state (R511, R521). -/
theorem deliver_precise {s : State} {f g : Fault} (hterm : s.terminal = none)
    (h : (s.deliver g).terminal = some f) : s.deliver g = { s.clearDecode with terminal := some f } := by
  rcases deliver_cases s g with ht | ⟨-, k, ht⟩
  · rw [ht] at h ⊢
    rw [Option.some.inj h]
  · rw [ht] at h
    cases hterm.symm.trans h

theorem interrupt_precise {s : State} {f : Fault} {n : Byte} (hterm : s.terminal = none)
    (h : (s.interrupt n).terminal = some f) : s.interrupt n = { s.clearDecode with terminal := some f } := by
  rcases interrupt_cases s n with ht | ⟨-, k, ht⟩
  · rw [ht] at h ⊢
    rw [Option.some.inj h]
  · rw [ht] at h
    cases hterm.symm.trans h

theorem exists_stringInstr {i : Instr}
    (h : i ∈ [Instr.movsb, .movsd, .stosb, .stosd, .lodsb, .lodsd, .scasb, .scasd, .cmpsb, .cmpsd]) :
    ∃ (op : StringOp) (dword : Bool), i = stringInstr op dword := by
  simp only [List.mem_cons, List.not_mem_nil, or_false] at h
  rcases h with rfl | rfl | rfl | rfl | rfl | rfl | rfl | rfl | rfl | rfl
  · exact ⟨.movs, false, rfl⟩
  · exact ⟨.movs, true, rfl⟩
  · exact ⟨.stos, false, rfl⟩
  · exact ⟨.stos, true, rfl⟩
  · exact ⟨.lods, false, rfl⟩
  · exact ⟨.lods, true, rfl⟩
  · exact ⟨.scas, false, rfl⟩
  · exact ⟨.scas, true, rfl⟩
  · exact ⟨.cmps, false, rfl⟩
  · exact ⟨.cmps, true, rfl⟩

/-- An instruction that ends in a terminal state was a repeated string instruction, whose completed iterations stay, or
left the state it began in. -/
theorem executed_precise {i : Instr} {s t : State} {f : Fault} (hterm : s.terminal = none) (h : Executed i s t)
    (ht : t.terminal = some f) :
    t = { s.clearDecode with terminal := some f } ∨
      ∃ (op : StringOp) (dword : Bool), i = stringInstr op dword ∧ s.rep ≠ .none ∧ t.eip = s.eip ∧
        t.instrCount = s.instrCount := by
  cases h with
  | ended h => cases (ends_terminal h).trans hterm |>.symm.trans ht
  | halt _ u h hu =>
    rw [hu] at ht
    cases (ends_terminal h).trans hterm |>.symm.trans ht
  | fault g hg =>
    rw [hg] at ht ⊢
    exact .inl (deliver_precise hterm ht)
  | repeated hrep hi u hw g hg =>
    obtain ⟨op, dword, hi⟩ := exists_stringInstr hi
    rw [hg] at ht
    rw [hg, deliver_precise (hw.terminal.trans hterm) ht]
    exact .inr ⟨op, dword, hi, hrep, hw.eip, hw.count⟩
  | interrupt _ n hn =>
    rw [hn] at ht ⊢
    exact .inl (interrupt_precise hterm ht)

/-- Settles O10: a decode fault and an instruction's fault are delivered on the state before the step. -/
theorem faultsArePrecise : Obligations.FaultsArePrecise := by
  unfold Obligations.FaultsArePrecise
  intro s t f hterm h ht
  cases step_cases h with
  | idle _ hidle =>
    rw [hidle, hterm] at ht
    cases ht
  | fetchFault _ g _ hg =>
    rw [hg] at ht ⊢
    exact .inl (deliver_precise hterm ht)
  | ran _ c next hc h =>
    rcases executed_precise (s := s.enter c next) hterm h ht with hprecise | ⟨op, dword, hrest⟩
    · exact .inl hprecise
    · exact .inr ⟨c, next, op, dword, hc, hrest⟩

end Sys2Proof.Proofs
end

section
/-! PROOFS. Addresses and data movement. -/

namespace Sys2Proof.Proofs

open Sys2Proof.Machine Sys2Proof.Claims Sys2Proof.Laws

/-! ### The effective address -/

/-- The displacement as a number (R117). -/
def dispInt : Disp → Int
  | .none => 0
  | .disp8 b => b.toInt
  | .disp32 w => w.toNat

/-- The scaled index as a number (R113, R115). -/
def indexInt (s : State) (scale : BitVec 2) (i : Reg) : Int :=
  if i = 4 then 0 else (s.gpr i).toNat * 2 ^ scale.toNat

theorem ofInt_dispInt (d : Disp) : BitVec.ofInt 32 (dispInt d) = dispValue d := by
  cases d with
  | none => rfl
  | disp8 b => rfl
  | disp32 w => exact ofInt_toNat w

theorem ofInt_indexInt (s : State) (scale : BitVec 2) (i : Reg) :
    BitVec.ofInt 32 (indexInt s scale i) = indexPart s scale i := by
  unfold indexInt indexPart
  split
  · rfl
  · apply BitVec.eq_of_toNat_eq
    rw [BitVec.toNat_shiftLeft, Nat.shiftLeft_eq, ← BitVec.toNat_ofNat]
    exact_mod_cast congrArg BitVec.toNat (BitVec.ofInt_natCast 32 ((s.gpr i).toNat * 2 ^ scale.toNat))

theorem effectiveAddr_base (s : State) (b : Reg) (d : Disp) :
    effectiveAddr s (.base b d) = BitVec.ofInt 32 ((s.gpr b).toNat + dispInt d) := by
  rw [BitVec.ofInt_add, ofInt_toNat, ofInt_dispInt]
  rfl

theorem effectiveAddr_sib (s : State) (scale : BitVec 2) (i b : Reg) (d : Disp) :
    effectiveAddr s (.sib scale i b d) =
      BitVec.ofInt 32 ((s.gpr b).toNat + indexInt s scale i + dispInt d) := by
  rw [BitVec.ofInt_add, BitVec.ofInt_add, ofInt_toNat, ofInt_indexInt, ofInt_dispInt]
  rfl

theorem effectiveAddr_sibAbs (s : State) (scale : BitVec 2) (i : Reg) (d : Word) :
    effectiveAddr s (.sibAbs scale i d) = BitVec.ofInt 32 (indexInt s scale i + d.toNat) := by
  rw [BitVec.ofInt_add, ofInt_indexInt, ofInt_toNat]
  rfl

/-- Settles O19: each term of the sum is the word of its number. -/
theorem effectiveAddress : Obligations.EffectiveAddress := by
  unfold Obligations.EffectiveAddress
  exact fun s => ⟨fun _ => rfl, effectiveAddr_base s, effectiveAddr_sib s, effectiveAddr_sibAbs s⟩

/-! ### How an instruction answers -/

theorem exec_next {i : Instr} {s t : State} {r : Except Fault State} (hexec : exec i s = finish s r)
    (hr : r = .ok t) : exec i s = .next t := by
  rw [hexec, hr]
  rfl

theorem exec_deliver {i : Instr} {s : State} {r : Except Fault State} {f : Fault} (hexec : exec i s = finish s r)
    (hr : r = .error f) : exec i s = .next (s.deliver f) := by
  rw [hexec, hr]
  rfl

theorem exec_completes {i : Instr} {s : State} {r : Except Fault State} {P : State → Prop}
    (hexec : exec i s = finish s r) (hr : ∃ t : State, r = .ok t ∧ P t) : ∃ t : State, exec i s = .next t ∧ P t := by
  obtain ⟨t, ht, hP⟩ := hr
  exact ⟨t, exec_next hexec ht, hP⟩

/-! ### MOV -/

/-- A MOV row at the width that its form and the operand-size prefix give (R105, R200). -/
theorem mov_completes {i : Instr} {s : State} {wide : Bool} {P : Nat → State → Prop}
    (op : ∀ {w : Nat}, Access w → Except Fault State)
    (hexec : exec i s = finish s (if wide then byOpsize s (op acc16) (op acc32) else op acc8))
    (hop : ∀ {w : Nat} {acc : Access w}, Faithful acc → w = movWidth wide s → ∃ t : State, op acc = .ok t ∧ P w t) :
    ∃ t : State, exec i s = .next t ∧ P (movWidth wide s) t := by
  refine exec_completes hexec ?_
  unfold movWidth byOpsize at *
  cases wide with
  | false => exact hop faithful8 rfl
  | true =>
    cases hosz : s.opsizeOverride with
    | false => exact hop faithful32 (by rw [hosz]; rfl)
    | true => exact hop faithful16 (by rw [hosz]; rfl)

/-- Settles O20, form by form, at whichever width. -/
theorem movCompletes : Obligations.MovCompletes := by
  unfold Obligations.MovCompletes
  intro f s hfits
  cases f with
  | toRm wide =>
    refine mov_completes (P := fun w t => RmSet w s t (regVal w s s.ops.reg) ∧ t.flags = s.flags ∧
      IntEnded s t s.next) (fun acc => storeRm acc s (acc.reg s s.ops.reg)) (by cases wide <;> rfl) fun hacc hw => ?_
    rw [hacc.reg]
    exact storeRm_fits hacc _ (hw ▸ hfits)
  | fromRm wide =>
    exact mov_completes (P := fun w t => (RegSet w s t s.ops.reg (rmVal w s) ∧ MemSame s t) ∧ t.flags = s.flags ∧
      IntEnded s t s.next) (fun acc => loadRm acc s) (by cases wide <;> rfl) fun hacc hw =>
        ⟨_, loadRm_fits hacc (hw ▸ hfits), setReg_complete hacc s _ _⟩
  | immReg wide =>
    exact mov_completes (P := fun w t => (RegSet w s t s.ops.reg (s.ops.imm.setWidth w) ∧ MemSame s t) ∧
      t.flags = s.flags ∧ IntEnded s t s.next) (fun acc => .ok (loadImm acc s)) (by cases wide <;> rfl) fun hacc _ =>
        ⟨_, rfl, setReg_complete hacc s _ _⟩
  | immRm wide =>
    exact mov_completes (P := fun w t => RmSet w s t (s.ops.imm.setWidth w) ∧ t.flags = s.flags ∧
      IntEnded s t s.next) (fun acc => storeRm acc s (s.imm _)) (by cases wide <;> rfl) fun hacc hw =>
        storeRm_fits hacc _ (hw ▸ hfits)
  | fromMoffs wide =>
    exact mov_completes (P := fun w t => (RegSet w s t 0
      (BitVec.ofNat w (bytesAt s (resolveSeg s s.ops.moffs) (w / 8))) ∧ MemSame s t) ∧ t.flags = s.flags ∧
      IntEnded s t s.next) (fun acc => loadMoffs acc s) (by cases wide <;> rfl) fun hacc hw =>
        ⟨_, loadMoffs_fits _ (hw ▸ hfits), setReg_complete hacc s _ _⟩
  | toMoffs wide =>
    exact mov_completes (P := fun w t => (RegsSame s t ∧
      MemStored s t (resolveSeg s s.ops.moffs) (w / 8) (regVal w s 0).toNat) ∧ t.flags = s.flags ∧
      IntEnded s t s.next) (fun acc => storeMoffs acc s) (by cases wide <;> rfl) fun hacc hw =>
        storeMoffs_fits hacc (hw ▸ hfits)

/-! ### Extensions and address loads -/

/-- The instruction writes `v` to the register `r` and nothing else. -/
def Moves (s : State) (i : Instr) (r : Reg) (v : Word) : Prop :=
  ∃ t : State, exec i s = .next t ∧ RegSet 32 s t r v ∧ MemSame s t ∧ t.flags = s.flags ∧ IntEnded s t s.next

theorem moves_setGpr {s : State} {i : Instr} {r : Reg} {v : Word}
    (hexec : exec i s = .next (s.setGpr r v).complete) : Moves s i r v := by
  obtain ⟨⟨hreg, hmem⟩, hflags, hend⟩ := setReg_complete faithful32 s r v
  exact ⟨_, hexec, hreg, hmem, hflags, hend⟩

theorem moves_extended {w : Nat} {acc : Access w} (hacc : Faithful acc) {s : State} {i : Instr}
    (ext : BitVec w → Word) (hexec : exec i s = finish s (loadExtended acc ext s)) (h : rmFits w s = true) :
    Moves s i s.ops.reg (ext (rmVal w s)) :=
  moves_setGpr (exec_next hexec (loadExtended_fits hacc ext h))

theorem moves_far {s : State} {i : Instr} {m : MemOp} (hexec : exec i s = finish s (loadFar s))
    (hrm : s.ops.rm = .mem m) (h : fits s (linearAddr s m) 4 = true) :
    Moves s i s.ops.reg (BitVec.ofNat 32 (bytesAt s (linearAddr s m) 4)) := by
  rw [← memAddr_mem hrm] at h ⊢
  exact moves_setGpr (exec_next hexec (loadFar_fits h))

theorem msb_iff (v : Word) : v.msb = true ↔ 2 ^ 31 ≤ v.toNat := by
  rw [BitVec.msb_eq_decide]
  exact decide_eq_true_iff

/-- Settles O21: each row writes one register. -/
theorem extensionsAndAddressLoads : Obligations.ExtensionsAndAddressLoads := by
  unfold Obligations.ExtensionsAndAddressLoads
  intro s moves
  refine ⟨fun h => ?_, fun h => ?_, moves_extended faithful8 (BitVec.signExtend 32) rfl,
    moves_extended faithful16 (BitVec.signExtend 32) rfl, ?_,
    ?_, fun m hm => ⟨?_, fun h => ?_⟩⟩
  · rw [BitVec.ofNat_toNat]
    exact moves_extended faithful8 _ rfl h
  · rw [BitVec.ofNat_toNat]
    exact moves_extended faithful16 _ rfl h
  · simp only [← msb_iff]
    exact moves_setGpr rfl
  · rw [← r16_eq]
    exact moves_setGpr rfl
  · have hop : s.memOperand = m := by rw [State.memOperand, hm]
    rw [← hop]
    exact moves_setGpr rfl
  · have hexec : ∀ i ∈ [Instr.lesR32M, .ldsR32M, .lssR32M, .lfsR32M, .lgsR32M], exec i s = finish s (loadFar s) := by
      simp only [List.forall_mem_cons]
      exact ⟨rfl, rfl, rfl, rfl, rfl, List.forall_mem_nil _⟩
    exact fun i hi => moves_far (hexec i hi) hm h

end Sys2Proof.Proofs
end

section
/-! PROOFS. The operations of R244, and TEST. -/

namespace Sys2Proof.Proofs

open Sys2Proof.Machine Sys2Proof.Claims Sys2Proof.Laws

/-! ### The nine forms -/

/-- What the row of an operation and a form does (R244), in terms of the form's source. -/
def aluForm (op : AluOp) (s : State) : AluForm → Except Fault State
  | .rm8r8 => aluRm acc8 op (AluForm.src .rm8r8 s) s
  | .rm32r32 => aluRm acc32 op (AluForm.src .rm32r32 s) s
  | .r8rm8 => aluRegRm acc8 op s
  | .r32rm32 => aluRegRm acc32 op s
  | .alib => .ok (aluReg acc8 op 0 (AluForm.src .alib s) s)
  | .eaxid => .ok (aluReg acc32 op 0 (AluForm.src .eaxid s) s)
  | .rm8ib => aluRm acc8 op (AluForm.src .rm8ib s) s
  | .rm32id => aluRm acc32 op (AluForm.src .rm32id s) s
  | .rm32ib => aluRm acc32 op (AluForm.src .rm32ib s) s

theorem imm32 (s : State) : s.imm 32 = s.ops.imm := BitVec.setWidth_eq s.ops.imm

theorem exec_aluInstr (op : AluOp) (f : AluForm) (s : State) :
    exec (aluInstr op f) s = finish s (aluForm op s f) := by
  cases f <;> simp only [aluForm, AluForm.src, ← r8_eq, ← gpr_eq, ← imm32] <;> cases op <;> rfl

/-- Every operation of R244 but CMP writes its result and the flags of it. -/
theorem aluForm_fits {op : AluOp} (hop : op ≠ .cmp) {f : AluForm} {s : State} (h : f.fits s = true) :
    let r := aluResult op s (f.dst s) (f.src s)
    ∃ t : State, aluForm op s f = .ok t ∧ f.Set s t r.val ∧ FlagsOf s t r.cf r.of r.val ∧ IntEnded s t s.next := by
  cases f with
  | rm8r8 => exact aluRm_fits faithful8 hop _ h
  | rm32r32 => exact aluRm_fits faithful32 hop _ h
  | r8rm8 => exact ⟨_, aluRegRm_fits faithful8 op h, aluReg_spec faithful8 hop _ _ s⟩
  | r32rm32 => exact ⟨_, aluRegRm_fits faithful32 op h, aluReg_spec faithful32 hop _ _ s⟩
  | alib => exact ⟨_, rfl, aluReg_spec faithful8 hop 0 _ s⟩
  | eaxid => exact ⟨_, rfl, aluReg_spec faithful32 hop 0 _ s⟩
  | rm8ib => exact aluRm_fits faithful8 hop _ h
  | rm32id => exact aluRm_fits faithful32 hop _ h
  | rm32ib => exact aluRm_fits faithful32 hop _ h

/-- CMP writes the flags of the difference alone (R249). -/
theorem aluForm_cmp {f : AluForm} {s : State} (h : f.fits s = true) :
    aluForm .cmp s f = .ok (s.setAlu (subResult (f.dst s) (f.src s))).complete := by
  cases f with
  | rm8r8 => exact aluRm_cmp faithful8 _ h
  | rm32r32 => exact aluRm_cmp faithful32 _ h
  | r8rm8 => exact (aluRegRm_fits faithful8 _ h).trans (congrArg _ (aluReg_cmp faithful8 _ _ s))
  | r32rm32 => exact (aluRegRm_fits faithful32 _ h).trans (congrArg _ (aluReg_cmp faithful32 _ _ s))
  | alib => exact congrArg _ (aluReg_cmp faithful8 0 _ s)
  | eaxid => exact congrArg _ (aluReg_cmp faithful32 0 _ s)
  | rm8ib => exact aluRm_cmp faithful8 _ h
  | rm32id => exact aluRm_cmp faithful32 _ h
  | rm32ib => exact aluRm_cmp faithful32 _ h

theorem alu_completes {op : AluOp} (hop : op ≠ .cmp) {f : AluForm} {s : State} (h : f.fits s = true) :
    let r := aluResult op s (f.dst s) (f.src s)
    ∃ t : State, exec (aluInstr op f) s = .next t ∧ f.Set s t r.val ∧ FlagsOf s t r.cf r.of r.val ∧
      IntEnded s t s.next :=
  exec_completes (exec_aluInstr op f s) (aluForm_fits hop h)

theorem compare_completes {f : AluForm} {s : State} (h : f.fits s = true) :
    let r := subResult (f.dst s) (f.src s)
    ∃ t : State, exec (aluInstr .cmp f) s = .next t ∧ RegsSame s t ∧ MemSame s t ∧ FlagsOf s t r.cf r.of r.val ∧
      IntEnded s t s.next :=
  exec_completes (exec_aluInstr .cmp f s) ⟨_, aluForm_cmp h, setAlu_complete_spec s _⟩

/-! ### Addition and subtraction -/

theorem addOverflow_eq {w : Nat} (a b r : BitVec w) :
    addOverflow a b r = decide (a.msb = b.msb ∧ r.msb ≠ a.msb) := by
  rw [addOverflow, Bool.decide_and, bne, Bool.beq_eq_decide_eq, Bool.beq_eq_decide_eq, decide_not]

theorem subOverflow_eq {w : Nat} (a b r : BitVec w) :
    subOverflow a b r = decide (a.msb ≠ b.msb ∧ r.msb ≠ a.msb) := by
  rw [subOverflow, Bool.decide_and, bne, bne, Bool.beq_eq_decide_eq, Bool.beq_eq_decide_eq, decide_not, decide_not]

/-- Settles O22. -/
theorem addCompletes : Obligations.AddCompletes := by
  unfold Obligations.AddCompletes
  intro f s h
  simp only [ofNat_add_toNat, Bool.decide_or, ← addOverflow_eq]
  obtain ⟨t, hexec, hset, hflags, hend⟩ := alu_completes (op := .add) nofun h
  refine ⟨t, hexec, hset, hflags, ?_, hend⟩
  rw [hflags.1, ← decide_eq_decide.2 (add_carry_iff (f.dst s) (f.src s)), Bool.decide_or]
  rfl

/-- The flags of a difference are those the vocabulary of the statements gives a comparison (R241). -/
theorem comparedFlags_of {w : Nat} {s t : State} {a b : BitVec w}
    (h : FlagsOf s t (subResult a b).cf (subResult a b).of (subResult a b).val) : ComparedFlags s t a b := by
  simp only [ComparedFlags, ofInt_sub_toNat, ← subOverflow_eq]
  exact h

/-- Settles O23. -/
theorem subAndCmpComplete : Obligations.SubAndCmpComplete := by
  unfold Obligations.SubAndCmpComplete
  intro f s h
  simp only [ofInt_sub_toNat]
  constructor
  · obtain ⟨t, hexec, hset, hflags, hend⟩ := alu_completes (op := .sub) nofun h
    exact ⟨t, hexec, hset, comparedFlags_of hflags, hend⟩
  · obtain ⟨t, hexec, hregs, hmem, hflags, hend⟩ := compare_completes h
    exact ⟨t, hexec, hregs, hmem, comparedFlags_of hflags, hend⟩

theorem width_pos (f : AluForm) : 0 < f.width := by
  cases f <;> decide

/-- Settles O24: under either rule OF is the sign formula, which is signed overflow of the exact result. -/
theorem adcAndSbbComplete : Obligations.AdcAndSbbComplete := by
  unfold Obligations.AdcAndSbbComplete
  intro f s h
  simp only [ofNat_add_carry, ofInt_sub_borrow]
  constructor
  · obtain ⟨t, hexec, hset, hflags, hend⟩ := alu_completes (op := .adc) nofun h
    have hof := addOverflow_eq (f.dst s) (f.src s) (f.dst s + f.src s + (BitVec.ofBool s.cf).setWidth f.width)
    rw [← add_overflow_iff (width_pos f), ← hof]
    simp only [Bool.decide_or]
    exact ⟨t, hexec, hset, hflags, hflags.2.1, hend⟩
  · obtain ⟨t, hexec, hset, hflags, hend⟩ := alu_completes (op := .sbb) nofun h
    have hof := subOverflow_eq (f.dst s) (f.src s) (f.dst s - f.src s - (BitVec.ofBool s.cf).setWidth f.width)
    rw [← sub_overflow_iff (width_pos f), ← hof]
    exact ⟨t, hexec, hset, hflags, hflags.2.1, hend⟩

/-! ### Logic -/

/-- What the row of a form of TEST does (R284). -/
def testForm (s : State) : AluForm → Except Fault State
  | .rm8r8 => testRm acc8 (AluForm.src .rm8r8 s) s
  | .rm32r32 => testRm acc32 (AluForm.src .rm32r32 s) s
  | .alib => .ok (testAcc acc8 (AluForm.src .alib s) s)
  | .eaxid => .ok (testAcc acc32 (AluForm.src .eaxid s) s)
  | .rm8ib => testRm acc8 (AluForm.src .rm8ib s) s
  | .rm32id => testRm acc32 (AluForm.src .rm32id s) s
  | _ => .ok s

theorem exec_testForm {p : Instr × AluForm} (hp : p ∈ testForms) (s : State) :
    exec p.1 s = finish s (testForm s p.2) := by
  revert p
  simp only [testForms, List.forall_mem_cons, testForm, AluForm.src, ← r8_eq, ← gpr_eq, ← imm32]
  exact ⟨rfl, rfl, rfl, rfl, rfl, rfl, List.forall_mem_nil _⟩

theorem testForm_fits {p : Instr × AluForm} (hp : p ∈ testForms) {s : State} (h : p.2.fits s = true) :
    testForm s p.2 = .ok (s.setAlu (logicResult (p.2.dst s &&& p.2.src s))).complete := by
  revert p
  simp only [testForms, List.forall_mem_cons]
  refine ⟨testRm_fits faithful8 _, testRm_fits faithful32 _, fun _ => ?_, fun _ => ?_, testRm_fits faithful8 _,
    testRm_fits faithful32 _, List.forall_mem_nil _⟩
  · simp only [testForm, testAcc, faithful8.reg]
    rfl
  · simp only [testForm, testAcc, faithful32.reg]
    rfl

/-- Settles O25. -/
theorem logicCompletes : Obligations.LogicCompletes := by
  unfold Obligations.LogicCompletes
  constructor
  · intro f s h
    simp only [List.forall_mem_cons]
    exact ⟨alu_completes (op := .and) nofun h, alu_completes (op := .or) nofun h,
      alu_completes (op := .xor) nofun h, List.forall_mem_nil _⟩
  · exact fun p hp s h => exec_completes (exec_testForm hp s) ⟨_, testForm_fits hp h, setAlu_complete_spec s _⟩

end Sys2Proof.Proofs
end

section
/-! PROOFS. One-operand arithmetic, multiplication, division and the bit scans. -/

namespace Sys2Proof.Proofs

open Sys2Proof.Machine Sys2Proof.Claims Sys2Proof.Laws

/-! ### INC, DEC, NEG and NOT -/

/-- What a one-operand row does in each form (R250, R251), `f` being its result and `setFlags` its flags. -/
def unaryForm (f : ∀ {w : Nat}, BitVec w → AluResult w) (setFlags : ∀ {w : Nat}, State → AluResult w → State)
    (s : State) : UnForm → Except Fault State
  | .r32 => .ok (unaryReg f setFlags s)
  | .rm8 => unaryRm acc8 f setFlags s
  | .rm32 => unaryRm acc32 f setFlags s

theorem unaryForm_fits {f : ∀ {w : Nat}, BitVec w → AluResult w}
    {setFlags : ∀ {w : Nat}, State → AluResult w → State}
    (hset : ∀ {w : Nat} (t : State) (r : AluResult w), setFlags t r = { t with flags := (setFlags t r).flags })
    {form : UnForm} {s : State} (h : form.fits s = true) :
    let r := f (form.val s)
    ∃ u : State, unaryForm f setFlags s form = .ok (setFlags u r).complete ∧ u.flags = s.flags ∧
      form.Set s (setFlags u r).complete r.val ∧ IntEnded s (setFlags u r).complete s.next := by
  cases form with
  | r32 =>
    obtain ⟨u, ht, hflags, hdone⟩ := unaryReg_spec f setFlags hset s
    rw [ht] at hdone
    exact ⟨u, congrArg _ ht, hflags, hdone⟩
  | rm8 =>
    obtain ⟨u, _, ht, rfl, hdone⟩ := unaryRm_fits faithful8 f setFlags hset h
    exact ⟨u, ht, hdone⟩
  | rm32 =>
    obtain ⟨u, _, ht, rfl, hdone⟩ := unaryRm_fits faithful32 f setFlags hset h
    exact ⟨u, ht, hdone⟩

theorem exec_incInstr (form : UnForm) (s : State) :
    exec (incInstr form) s = finish s (unaryForm (addResult · 1) State.setAluKeepCf s form) := by
  cases form <;> rfl

theorem exec_decInstr (form : UnForm) (s : State) :
    exec (decInstr form) s = finish s (unaryForm (subResult · 1) State.setAluKeepCf s form) := by
  cases form <;> rfl

theorem exec_negForm {p : Instr × UnForm} (hp : p ∈ negForms) (s : State) :
    exec p.1 s = finish s (unaryForm (subResult 0 ·) State.setAlu s p.2) := by
  revert p
  simp only [negForms, List.forall_mem_cons]
  exact ⟨rfl, rfl, List.forall_mem_nil _⟩

theorem exec_notForm {p : Instr × UnForm} (hp : p ∈ notForms) (s : State) :
    exec p.1 s = finish s (unaryForm (fun a => logicResult (~~~a)) (fun t _ => t) s p.2) := by
  revert p
  simp only [notForms, List.forall_mem_cons]
  exact ⟨rfl, rfl, List.forall_mem_nil _⟩

theorem unForm_width (form : UnForm) : form.width = 8 ∨ form.width = 32 := by
  cases form <;> decide

section
variable {w : Nat} (hw : w = 8 ∨ w = 32) (a : BitVec w)
include hw

theorem addOverflow_one : addOverflow a 1 (a + 1) = decide (a.toNat = 2 ^ (w - 1) - 1) := by
  rw [addOverflow_eq, decide_eq_decide]
  rcases hw with rfl | rfl <;>
  · simp only [BitVec.msb_eq_decide, BitVec.toNat_add, BitVec.ofNat_eq_ofNat, BitVec.toNat_ofNat, ne_eq,
      decide_eq_decide]
    omega

theorem subOverflow_one : subOverflow a 1 (a - 1) = decide (a.toNat = 2 ^ (w - 1)) := by
  rw [subOverflow_eq, decide_eq_decide]
  rcases hw with rfl | rfl <;>
  · simp only [BitVec.msb_eq_decide, BitVec.toNat_sub, BitVec.ofNat_eq_ofNat, BitVec.toNat_ofNat, ne_eq,
      decide_eq_decide]
    omega

theorem subOverflow_zero : subOverflow 0 a (0 - a) = decide (a.toNat = 2 ^ (w - 1)) := by
  rw [subOverflow_eq, decide_eq_decide]
  rcases hw with rfl | rfl <;>
  · simp only [BitVec.msb_eq_decide, BitVec.toNat_sub, BitVec.ofNat_eq_ofNat, BitVec.toNat_ofNat, ne_eq,
      decide_eq_decide]
    omega

end

theorem ofNat_toNat_add_one {w : Nat} (a : BitVec w) : BitVec.ofNat w (a.toNat + 1) = a + 1 := by
  rw [BitVec.ofNat_add, BitVec.ofNat_toNat, BitVec.setWidth_eq]
  rfl

theorem ofInt_toNat_sub_one {w : Nat} (a : BitVec w) : BitVec.ofInt w ((a.toNat : Int) - 1) = a - 1 := by
  rw [ofInt_sub, ofInt_toNat]
  rfl

theorem ofInt_neg_toNat {w : Nat} (a : BitVec w) : BitVec.ofInt w (-(a.toNat : Int)) = 0 - a := by
  rw [BitVec.ofInt_neg, ofInt_toNat]
  exact (BitVec.zero_sub a).symm

theorem ofNat_not_toNat {w : Nat} (a : BitVec w) : BitVec.ofNat w (2 ^ w - 1 - a.toNat) = ~~~a := by
  rw [← BitVec.toNat_not, BitVec.ofNat_toNat, BitVec.setWidth_eq]

theorem zero_lt_toNat_iff {w : Nat} (a : BitVec w) : (0 : BitVec w).toNat < a.toNat ↔ a ≠ 0 := by
  simp [← BitVec.toNat_inj, Nat.pos_iff_ne_zero]

theorem incDec_completes {f : ∀ {w : Nat}, BitVec w → AluResult w} {i : Instr} {form : UnForm} {s : State}
    (hexec : exec i s = finish s (unaryForm f State.setAluKeepCf s form)) (h : form.fits s = true) :
    let r := f (form.val s)
    ∃ t : State, exec i s = .next t ∧ form.Set s t r.val ∧ t.of = r.of ∧ t.zf = decide (r.val = 0) ∧
      t.sf = r.val.msb ∧ FlagsSameBut [6, 7, 11] s t ∧ IntEnded s t s.next := by
  obtain ⟨u, ht, hflags, hset, hend⟩ := unaryForm_fits (f := f) (setFlags := State.setAluKeepCf) (fun _ _ => rfl) h
  obtain ⟨hof, hzf, hsf, hsame⟩ := flags_setAluKeepCf (f (form.val s)) hflags
  exact ⟨_, exec_next hexec ht, hset, hof, hzf, hsf, hsame, hend⟩

/-- Settles O26. -/
theorem unaryCompletes : Obligations.UnaryCompletes := by
  unfold Obligations.UnaryCompletes
  refine ⟨fun form s h => ⟨?_, ?_⟩, fun p hp s h => ?_, fun p hp s h => ?_⟩
  · simp only [ofNat_toNat_add_one, ← addOverflow_one (unForm_width form)]
    exact incDec_completes (exec_incInstr form s) h
  · simp only [ofInt_toNat_sub_one, ← subOverflow_one (unForm_width form)]
    exact incDec_completes (exec_decInstr form s) h
  · simp only [ofInt_neg_toNat, ← subOverflow_zero (unForm_width p.2), ← zero_lt_toNat_iff]
    obtain ⟨u, ht, hflags, hset, hend⟩ :=
      unaryForm_fits (f := (subResult 0 ·)) (setFlags := State.setAlu) (fun _ _ => rfl) h
    exact ⟨_, exec_next (exec_negForm hp s) ht, hset,
      FlagsOf.congr (flagsOf_setAlu (subResult 0 (p.2.val s)) hflags) rfl, hend⟩
  · rw [ofNat_not_toNat]
    obtain ⟨u, ht, hflags, hset, hend⟩ :=
      unaryForm_fits (f := fun a => logicResult (~~~a)) (setFlags := fun t _ => t) (fun _ _ => rfl) h
    exact ⟨_, exec_next (exec_notForm hp s) ht, hset, hflags, hend⟩

end Sys2Proof.Proofs
end

section
/-! PROOFS. Multiplication, division and the bit scans. -/

namespace Sys2Proof.Proofs

open Sys2Proof.Machine Sys2Proof.Claims Sys2Proof.Laws

/-! ### A pair of registers -/

/-- EDX:EAX written (R253, R254, R257, R258). -/
def setEdxEax (s : State) (hi lo : Word) : State := (s.setGpr 0 lo).setGpr 2 hi

theorem gpr_setEdxEax (s : State) (hi lo : Word) (j : Reg) :
    (setEdxEax s hi lo).gpr j = if j = 2 then hi else if j = 0 then lo else s.gpr j := by
  rw [setEdxEax, gpr_setGpr, gpr_setGpr]

theorem regsSameBut_setEdxEax (s : State) (hi lo : Word) : RegsSameBut [0, 2] s (setEdxEax s hi lo) := by
  intro j hj
  obtain ⟨h0, h2⟩ : j ≠ 0 ∧ j ≠ 2 := by simpa using hj
  rw [gpr_setEdxEax, if_neg h2, if_neg h0]

/-- EDX:EAX as one number, read without and with its sign. -/
theorem toNat_edxEax (s : State) : s.edxEax.toNat = (s.gpr 2).toNat * 2 ^ 32 + (s.gpr 0).toNat := by
  rw [State.edxEax, BitVec.toNat_append, ← Nat.shiftLeft_add_eq_or_of_lt (s.gpr 0).isLt, Nat.shiftLeft_eq]

theorem toInt_edxEax (s : State) : s.edxEax.toInt = (s.gpr 2).toInt * 2 ^ 32 + (s.gpr 0).toNat := by
  rw [State.edxEax, BitVec.toInt_append, mul_comm]
  rfl

/-! ### Multiplication -/

/-- A product in one register, with CF and OF (R253 to R256). -/
theorem product_completes {w : Nat} {acc : Access w} (hacc : Faithful acc) {i : Instr} {s : State} {r : Reg}
    {v : BitVec w} {b : Bool} {res : Except Fault State} (hexec : exec i s = finish s res)
    (hres : res = .ok ((acc.setReg s r v).setMul b).complete) :
    ∃ t : State, exec i s = .next t ∧ RegSet w s t r v ∧ MemSame s t ∧ CarryOverflow s t b b ∧
      IntEnded s t s.next := by
  have hrest := setReg_rest hacc s r v
  have hflags : (acc.setReg s r v).flags = s.flags := by rw [hacc.rest]
  have hmem : (acc.setReg s r v).mem = s.mem := by rw [hacc.rest]
  exact ⟨_, exec_next hexec hres, RegSet.congr (hacc.set s r v) rfl, memSame_of hmem,
    carryOverflow_set b b hflags, intEnded_flags hrest rfl⟩

/-- A product in EDX:EAX, with CF and OF (R253, R254). -/
theorem wideProduct_completes {i : Instr} {s : State} {hi lo : Word} {b : Bool} {res : Except Fault State}
    (hexec : exec i s = finish s res) (hres : res = .ok ((setEdxEax s hi lo).setMul b).complete) :
    ∃ t : State, exec i s = .next t ∧ t.gpr 2 = hi ∧ t.gpr 0 = lo ∧ RegsSameBut [0, 2] s t ∧ MemSame s t ∧
      CarryOverflow s t b b ∧ IntEnded s t s.next := by
  refine ⟨_, exec_next hexec hres, gpr_setEdxEax s hi lo 2, gpr_setEdxEax s hi lo 0,
    regsSameBut_setEdxEax s hi lo, fun _ => rfl, ?_, intEnded_flags (t := setEdxEax s hi lo) rfl rfl⟩
  exact carryOverflow_set (t := setEdxEax s hi lo) b b rfl

theorem mul8_fits {s : State} (h : rmFits 8 s = true) :
    let p := (regVal 8 s 0).toNat * (rmVal 8 s).toNat
    mul8 s = .ok ((s.setR16 0 (BitVec.ofNat 16 p)).setMul (decide (256 ≤ p))).complete := by
  simp only [mul8, readRm_fits faithful8 h, r8_eq]
  rfl

theorem imul8_fits {s : State} (h : rmFits 8 s = true) :
    let p := (regVal 8 s 0).toInt * (rmVal 8 s).toInt
    imul8 s = .ok ((s.setR16 0 (BitVec.ofInt 16 p)).setMul (signedOverflow 8 p)).complete := by
  simp only [imul8, readRm_fits faithful8 h, r8_eq]
  rfl

theorem mul32_fits {s : State} (h : rmFits 32 s = true) :
    let p := (s.gpr 0).toNat * (rmVal 32 s).toNat
    mul32 s = .ok ((setEdxEax s (BitVec.ofNat 32 (p / 2 ^ 32)) (BitVec.ofNat 32 p)).setMul
      (decide (2 ^ 32 ≤ p))).complete := by
  simp only [mul32, readRm_fits faithful32 h]
  rfl

theorem imul32_fits {s : State} (h : rmFits 32 s = true) :
    let p := (s.gpr 0).toInt * (rmVal 32 s).toInt
    imul32 s = .ok ((setEdxEax s ((BitVec.ofInt 64 p).extractLsb' 32 32) ((BitVec.ofInt 64 p).extractLsb' 0 32)).setMul
      (signedOverflow 32 p)).complete := by
  simp only [imul32, readRm_fits faithful32 h]
  rfl

theorem imulReg_fits (a : Word) {s : State} (h : rmFits 32 s = true) :
    let p := (rmVal 32 s).toInt * a.toInt
    imulReg a s = .ok ((s.setGpr s.ops.reg (BitVec.ofInt 32 p)).setMul (signedOverflow 32 p)).complete := by
  simp only [imulReg, readRm_fits faithful32 h]
  rfl

theorem signedOverflow_eq (w : Nat) (p : Int) :
    signedOverflow w p = decide (p < -2 ^ (w - 1) ∨ 2 ^ (w - 1) ≤ p) := (Bool.decide_or ..).symm

theorem halves_of_nat {p : Nat} (h : p < 2 ^ 64) :
    (BitVec.ofNat 32 (p / 2 ^ 32)).toNat * 2 ^ 32 + (BitVec.ofNat 32 p).toNat = p := by
  rw [BitVec.toNat_ofNat, BitVec.toNat_ofNat]
  omega

theorem halves_of_int {p : Int} (h1 : -2 ^ 63 ≤ p) (h2 : p < 2 ^ 63) :
    ((BitVec.ofInt 64 p).extractLsb' 32 32).toInt * 2 ^ 32 + ((BitVec.ofInt 64 p).extractLsb' 0 32).toNat = p := by
  have happend : ∀ hi lo : Word, (hi ++ lo).toInt = hi.toInt * 2 ^ 32 + lo.toNat := fun hi lo => by
    rw [BitVec.toInt_append, mul_comm]
    rfl
  have hsplit : ∀ x : BitVec 64, x.extractLsb' 32 32 ++ x.extractLsb' 0 32 = x := fun x =>
    (BitVec.extractLsb'_append_extractLsb'_eq_extractLsb' (start₁ := 0) (len₁ := 32) rfl).trans
      BitVec.extractLsb'_eq_self
  rw [← happend, hsplit, BitVec.toInt_ofInt_eq_self (by decide) h1 h2]

theorem high_ne_zero_iff {p : Nat} (h : p < 2 ^ 64) : BitVec.ofNat 32 (p / 2 ^ 32) ≠ 0 ↔ 2 ^ 32 ≤ p := by
  rw [ne_eq, ← BitVec.toNat_inj, BitVec.toNat_ofNat]
  simp only [BitVec.ofNat_eq_ofNat, BitVec.toNat_ofNat]
  omega

theorem natProduct_lt (a b : Word) : a.toNat * b.toNat < 2 ^ 64 :=
  (Nat.mul_lt_mul'' a.isLt b.isLt).trans_eq (by norm_num)

theorem intProduct_bounds (a b : Word) : -2 ^ 63 ≤ a.toInt * b.toInt ∧ a.toInt * b.toInt < 2 ^ 63 := by
  have ha : |a.toInt| ≤ 2 ^ 31 := abs_le.2 ⟨a.le_toInt, a.toInt_lt.le⟩
  have hb : |b.toInt| ≤ 2 ^ 31 := abs_le.2 ⟨b.le_toInt, b.toInt_lt.le⟩
  have hab : |a.toInt * b.toInt| ≤ 2 ^ 31 * 2 ^ 31 := by
    rw [abs_mul]
    exact mul_le_mul ha hb (abs_nonneg _) (by norm_num)
  obtain ⟨h1, h2⟩ := abs_le.1 hab
  constructor <;> omega

/-- Settles O27. -/
theorem multiplyCompletes : Obligations.MultiplyCompletes := by
  unfold Obligations.MultiplyCompletes
  intro s
  refine ⟨fun h => ⟨?_, ?_⟩, fun h => ⟨?_, ?_⟩, fun h => ?_⟩
  · have hcarry : ∀ u : Nat, u / 256 ≠ 0 ↔ 256 ≤ u := by omega
    simp only [hcarry]
    exact product_completes faithful16 rfl (mul8_fits h)
  · simp only [← signedOverflow_eq 8]
    exact product_completes faithful16 rfl (imul8_fits h)
  · obtain ⟨t, hexec, hhi, hlo, hregs, hmem, hflags, hend⟩ := 
      wideProduct_completes (i := .mulRm32) rfl (mul32_fits h)
    refine ⟨t, hexec, ?_, hregs, hmem, ?_, hend⟩
    · rw [hhi, hlo]
      exact halves_of_nat (natProduct_lt _ _)
    · simp only [hhi, high_ne_zero_iff (natProduct_lt _ _)]
      exact hflags
  · obtain ⟨t, hexec, hhi, hlo, hregs, hmem, hflags, hend⟩ := 
      wideProduct_completes (i := .imulRm32) rfl (imul32_fits h)
    obtain ⟨h1, h2⟩ := intProduct_bounds (s.gpr 0) (rmVal 32 s)
    refine ⟨t, hexec, ?_, hregs, hmem, ?_, hend⟩
    · rw [hhi, hlo]
      exact halves_of_int h1 h2
    · rw [signedOverflow_eq] at hflags
      exact hflags
  · simp only [List.forall_mem_cons, ← signedOverflow_eq 32, ← imm32]
    exact ⟨product_completes faithful32 rfl (imulReg_fits _ h), product_completes faithful32 rfl (imulReg_fits _ h),
      product_completes faithful32 rfl (imulReg_fits _ h), List.forall_mem_nil _⟩

/-! ### Division -/

theorem divide_zero (w n : Nat) (key : OpKey) (start : Word) :
    divide w n 0 key start = .error (.divideByZero key start) :=
  rfl

theorem divide_overflow {w n d : Nat} (key : OpKey) (start : Word) (hd : d ≠ 0) (hq : 2 ^ w ≤ n / d) :
    divide w n d key start = .error (.quotientOverflow key start) := by
  rw [divide, if_neg hd, if_pos hq]

theorem divide_fits {w n d : Nat} (key : OpKey) (start : Word) (hd : d ≠ 0) (hq : n / d < 2 ^ w) :
    divide w n d key start = .ok (BitVec.ofNat w (n / d), BitVec.ofNat w (n % d)) := by
  rw [divide, if_neg hd, if_neg (not_le.2 hq)]

theorem divideSigned_zero (w : Nat) (n : Int) (key : OpKey) (start : Word) :
    divideSigned w n 0 key start = .error (.divideByZero key start) := rfl

theorem divideSigned_overflow {w : Nat} {n d : Int} (key : OpKey) (start : Word) (hd : d ≠ 0)
    (hq : n.tdiv d < -2 ^ (w - 1) ∨ 2 ^ (w - 1) ≤ n.tdiv d) :
    divideSigned w n d key start = .error (.quotientOverflow key start) := by
  simp only [divideSigned, if_neg hd, signedOverflow_eq, decide_eq_true hq, if_true]

theorem divideSigned_fits {w : Nat} {n d : Int} (key : OpKey) (start : Word) (hd : d ≠ 0)
    (h1 : -2 ^ (w - 1) ≤ n.tdiv d) (h2 : n.tdiv d < 2 ^ (w - 1)) :
    divideSigned w n d key start = .ok (BitVec.ofInt w (n.tdiv d), BitVec.ofInt w (n - n.tdiv d * d)) := by
  have hq : ¬(n.tdiv d < -2 ^ (w - 1) ∨ 2 ^ (w - 1) ≤ n.tdiv d) := not_or.2 ⟨not_lt.2 h1, not_le.2 h2⟩
  simp only [divideSigned, if_neg hd, signedOverflow_eq, decide_eq_false hq, if_false, Bool.false_eq_true]

section
variable {s : State}

theorem div8_eq (h : rmFits 8 s = true) :
    div8 s = (divide 8 (regVal 16 s 0).toNat (rmVal 8 s).toNat (.one 0xF6) s.eip).map (putDiv8 s) := by
  simp only [div8, readRm_fits faithful8 h, r16_eq]
  rfl

theorem idiv8_eq (h : rmFits 8 s = true) :
    idiv8 s = (divideSigned 8 (regVal 16 s 0).toInt (rmVal 8 s).toInt (.one 0xF6) s.eip).map (putDiv8 s) := by
  simp only [idiv8, readRm_fits faithful8 h, r16_eq]
  rfl

theorem div32_eq (h : rmFits 32 s = true) :
    div32 s = (divide 32 ((s.gpr 2).toNat * 2 ^ 32 + (s.gpr 0).toNat) (rmVal 32 s).toNat (.one 0xF7) s.eip).map
      (putDiv32 s) := by
  simp only [div32, readRm_fits faithful32 h, ← toNat_edxEax]
  rfl

theorem idiv32_eq (h : rmFits 32 s = true) :
    idiv32 s = (divideSigned 32 ((s.gpr 2).toInt * 2 ^ 32 + (s.gpr 0).toNat) (rmVal 32 s).toInt (.one 0xF7)
      s.eip).map (putDiv32 s) := by
  simp only [idiv32, readRm_fits faithful32 h, ← toInt_edxEax]
  rfl

end

/-- A quotient and a remainder put into AL and AH (R257, R258). -/
def Puts8 (i : Instr) (s : State) (q m : Byte) : Prop :=
  ∃ t : State, exec i s = .next t ∧ regVal 8 t 0 = q ∧ regVal 8 t 4 = m ∧
    (∀ k : Nat, 16 ≤ k → (t.gpr 0).getLsbD k = (s.gpr 0).getLsbD k) ∧ RegsSameBut [0] s t ∧
    MemSame s t ∧ t.flags = s.flags ∧ IntEnded s t s.next

/-- A quotient and a remainder put into EAX and EDX (R257, R258). -/
def Puts32 (i : Instr) (s : State) (q m : Word) : Prop :=
  ∃ t : State, exec i s = .next t ∧ t.gpr 0 = q ∧ t.gpr 2 = m ∧ RegsSameBut [0, 2] s t ∧
    MemSame s t ∧ t.flags = s.flags ∧ IntEnded s t s.next

/-- A register whose bits are those of before is the register of before. -/
theorem gpr_eq_of_bits {s t : State} {i : Reg} (h : ∀ k : Nat, (t.gpr i).getLsbD k = (s.gpr i).getLsbD k) :
    t.gpr i = s.gpr i :=
  BitVec.eq_of_getLsbD_eq fun k _ => h k

theorem puts8 {i : Instr} {s : State} {q m : Byte} {res : Except Fault State} (hexec : exec i s = finish s res)
    (hres : res = .ok (putDiv8 s (q, m))) : Puts8 i s q m := by
  obtain ⟨hq, hrestq⟩ := regSet_setR8 s 0 q
  obtain ⟨hm, hrestm⟩ := regSet_setR8 (s.setR8 0 q) 4 m
  rw [show aliasReg 8 0 = 0 from rfl, show aliasLow 8 0 = 0 from rfl] at hrestq
  rw [show aliasReg 8 4 = 0 from rfl, show aliasLow 8 4 = 8 from rfl] at hrestm
  have hkeep : ∀ (j : Reg) (k : Nat), j = 0 ∧ k < 16 ∨
      (((s.setR8 0 q).setR8 4 m).gpr j).getLsbD k = (s.gpr j).getLsbD k := fun j k =>
    or_iff_not_imp_left.2 fun hk => (hrestm j k fun ⟨hj, _, h⟩ => hk ⟨hj, h⟩).trans
      (hrestq j k fun ⟨hj, _, h⟩ => hk ⟨hj, h.trans (by decide)⟩)
  refine ⟨_, exec_next hexec hres, ?_, hm, fun k hk => (hkeep 0 k).resolve_left (by omega),
    fun j hj => gpr_eq_of_bits fun k => (hkeep j k).resolve_left fun h => hj (List.mem_singleton.2 h.1), fun _ => rfl,
    rfl, intEnded_complete rfl⟩
  refine Eq.trans (BitVec.eq_of_getLsbD_eq fun k hk => ?_) hq
  simp only [regVal, BitVec.getLsbD_extractLsb', show aliasReg 8 0 = 0 from rfl, show aliasLow 8 0 = 0 from rfl]
  exact congrArg _ (hrestm 0 (0 + k) (by omega))

theorem puts32 {i : Instr} {s : State} {q m : Word} {res : Except Fault State} (hexec : exec i s = finish s res)
    (hres : res = .ok (putDiv32 s (q, m))) : Puts32 i s q m :=
  ⟨_, exec_next hexec hres, gpr_setEdxEax s m q 0, gpr_setEdxEax s m q 2, regsSameBut_setEdxEax s m q,
    fun _ => rfl, rfl, intEnded_complete rfl⟩

/-- Settles O28. -/
theorem divideCompletes : Obligations.DivideCompletes := by
  unfold Obligations.DivideCompletes
  refine fun s => ⟨fun h hd hq => ?_, fun h hd hq => ?_, fun h hd h1 h2 => ?_, fun h hd h1 h2 => ?_⟩
  · exact puts8 rfl (by rw [div8_eq h, divide_fits _ _ hd hq]; rfl)
  · exact puts32 rfl (by rw [div32_eq h, divide_fits _ _ hd hq]; rfl)
  · exact puts8 rfl (by rw [idiv8_eq h, divideSigned_fits _ _ hd h1 h2]; rfl)
  · exact puts32 rfl (by rw [idiv32_eq h, divideSigned_fits _ _ hd h1 h2]; rfl)

theorem toNat_ne_zero {w : Nat} {d : BitVec w} (hd : d ≠ 0) : d.toNat ≠ 0 := by
  simpa [← BitVec.toNat_inj] using hd

theorem toInt_ne_zero {w : Nat} {d : BitVec w} (hd : d ≠ 0) : d.toInt ≠ 0 := by
  simpa [← BitVec.toInt_inj] using hd

/-- Settles O29. -/
theorem divideFaults : Obligations.DivideFaults := by
  unfold Obligations.DivideFaults
  refine fun s => ⟨fun h hd => ⟨?_, ?_⟩, fun h hd => ⟨?_, ?_⟩, fun h hd => ⟨fun hq => ?_, fun hq => ?_⟩,
    fun h hd => ⟨fun hq => ?_, fun hq => ?_⟩⟩
  · exact exec_deliver rfl (by rw [div8_eq h, hd]; rfl)
  · exact exec_deliver rfl (by rw [idiv8_eq h, hd]; rfl)
  · exact exec_deliver rfl (by rw [div32_eq h, hd]; rfl)
  · exact exec_deliver rfl (by rw [idiv32_eq h, hd]; rfl)
  · exact exec_deliver rfl (by rw [div8_eq h, divide_overflow _ _ (toNat_ne_zero hd) hq]; rfl)
  · exact exec_deliver rfl (by rw [idiv8_eq h, divideSigned_overflow _ _ (toInt_ne_zero hd) hq]; rfl)
  · exact exec_deliver rfl (by rw [div32_eq h, divide_overflow _ _ (toNat_ne_zero hd) hq]; rfl)
  · exact exec_deliver rfl (by rw [idiv32_eq h, divideSigned_overflow _ _ (toInt_ne_zero hd) hq]; rfl)

/-! ### Bit scans -/

theorem exists_set_bit {v : Word} (hv : v ≠ 0) : ∃ j : Nat, j < 32 ∧ v.getLsbD j = true := by
  by_contra hnone
  push Not at hnone
  exact hv (BitVec.eq_of_getLsbD_eq fun k hk => by simpa using hnone k hk)

/-- The index `find` answers is in range and set, and no set bit lies before it, seen from `low`'s end. -/
def Finds (find : Word → Nat) (low : Bool) : Prop :=
  ∀ v : Word, v ≠ 0 → find v < 32 ∧ v.getLsbD (find v) = true ∧
    ∀ j : Nat, (if low then j < find v else find v < j) → v.getLsbD j = false

theorem finds_lowestSet : Finds (lowestSet · 32) true := by
  intro v hv
  obtain ⟨j, hj, hset⟩ := exists_set_bit hv
  obtain ⟨-, hlt, hbit, hleast⟩ := lowestSet_spec v 32 le_rfl ⟨j, Nat.zero_le j, hj, hset⟩
  exact ⟨hlt, hbit, fun j hj => hleast j (Nat.zero_le j) hj⟩

theorem finds_highestSet : Finds (highestSet · 32) false := by
  intro v hv
  obtain ⟨hlt, hbit, hgreatest⟩ := highestSet_spec v 32 (exists_set_bit hv)
  refine ⟨hlt, hbit, fun j hj => ?_⟩
  rcases Nat.lt_or_ge j 32 with hj32 | hj32
  · exact hgreatest j hj hj32
  · exact BitVec.getLsbD_of_ge v j hj32

theorem bitScan_completes {i : Instr} {find : Word → Nat} {low : Bool} {s : State}
    (hexec : exec i s = finish s (bitScan find s)) (hfind : Finds find low) (h : rmFits 32 s = true) :
    let v := rmVal 32 s
    ∃ t : State, exec i s = .next t ∧ t.zf = decide (v = 0) ∧ FlagsSameBut [6] s t ∧ MemSame s t ∧
      IntEnded s t s.next ∧ (v = 0 → RegsSame s t) ∧
      (v ≠ 0 → ∃ i : Nat, i < 32 ∧ v.getLsbD i = true ∧
        (∀ j : Nat, (if low then j < i else i < j) → v.getLsbD j = false) ∧
        RegSet 32 s t s.ops.reg (BitVec.ofNat 32 i)) := by
  have hzf : ∀ b : Bool, (s.setZf b).zf = b := fun b => by
    rw [State.zf, setZf_flags, getLsbD_setBit, if_pos ⟨rfl, by decide⟩]
  have hsame : ∀ b : Bool, FlagsSameBut [6] s (s.setZf b) := fun b k hk => by
    rw [setZf_flags, getLsbD_setBit_other _ _ (List.mem_singleton.not.1 hk)]
  intro v
  by_cases hv : v = 0
  · refine ⟨_, exec_next hexec (bitScan_zero find h hv), (hzf true).trans (decide_eq_true hv).symm, hsame true,
      fun _ => rfl, intEnded_setFlags s _, fun _ _ => rfl, fun hne => absurd hv hne⟩
  · obtain ⟨hlt, hbit, hleast⟩ := hfind v hv
    refine ⟨_, exec_next hexec (bitScan_nonzero find h hv), (hzf false).trans (decide_eq_false hv).symm,
      hsame false, fun _ => rfl, intEnded_complete rfl, fun h0 => absurd h0 hv,
      fun _ => ⟨find v, hlt, hbit, hleast, ?_⟩⟩
    exact RegSet.congr (regSet_setGpr s s.ops.reg (BitVec.ofNat 32 (find v))) rfl

/-- Settles O30. -/
theorem bitScanCompletes : Obligations.BitScanCompletes := by
  unfold Obligations.BitScanCompletes
  intro s h
  simp only [List.forall_mem_cons]
  exact ⟨bitScan_completes rfl finds_lowestSet h, bitScan_completes rfl finds_highestSet h, List.forall_mem_nil _⟩

end Sys2Proof.Proofs
end

section
/-! PROOFS. Shifts and rotates. -/

namespace Sys2Proof.Proofs

open Sys2Proof.Machine Sys2Proof.Claims Sys2Proof.Laws

/-! ### The 42 rows -/

/-- The register access of a row's width. -/
def shiftAcc : (wide : Bool) → Access (shiftWidth wide)
  | false => acc8
  | true => acc32

theorem faithful_shiftAcc (wide : Bool) : Faithful (shiftAcc wide) :=
  match wide with
  | false => faithful8
  | true => faithful32

/-- Where a row takes its count (R290). -/
def countByte (s : State) : CountForm → Byte
  | .ib => s.imm 8
  | .one => 1
  | .cl => s.r8 1

theorem exec_shiftInstr (op : ShiftOp) (wide : Bool) (c : CountForm) (s : State) :
    exec (shiftInstr op wide c) s = finish s (shiftRm (shiftAcc wide) op (countByte s c) s) := by
  cases op <;> cases wide <;> cases c <;> rfl

theorem maskedCount_countByte (s : State) (c : CountForm) : maskedCount (countByte s c) = c.count s := by
  cases c with
  | ib =>
    rw [maskedCount, countByte, State.imm, BitVec.toNat_setWidth]
    exact Nat.mod_mod_of_dvd _ (by decide)
  | one => rfl
  | cl => rw [maskedCount, countByte, r8_eq, CountForm.count]

/-- Settles O31. -/
theorem zeroCountShifts : Obligations.ZeroCountShifts := by
  unfold Obligations.ZeroCountShifts
  intro op wide c s h hc
  have hzero : maskedCount (countByte s c) = 0 := (maskedCount_countByte s c).trans hc
  exact ⟨_, exec_next (exec_shiftInstr op wide c s) (shiftRm_zero (faithful_shiftAcc wide) op h hzero),
    fun _ => rfl, fun _ => rfl, rfl, intEnded_complete rfl⟩

section
variable {op : ShiftOp} {wide : Bool} {c : CountForm} {s : State} (h : rmFits (shiftWidth wide) s = true)
  (hc : c.count s ≠ 0)
include h hc

theorem shift_completes :
    let r := shiftResult op s.cf (rmVal (shiftWidth wide) s) (c.count s)
    ∃ t : State, exec (shiftInstr op wide c) s = .next t ∧ RmSet (shiftWidth wide) s t r.val ∧
      IntEnded s t s.next ∧ (op.writesZs = false → CarryOverflow s t r.cf r.of) ∧
      (op.writesZs = true → FlagsOf s t r.cf r.of r.val) := by
  have hcount := maskedCount_countByte s c
  rw [← hcount] at hc ⊢
  exact exec_completes (exec_shiftInstr op wide c s) (shiftRm_fits (faithful_shiftAcc wide) op h hc)

/-- A rotate writes its result, CF and OF (R293 to R296). -/
theorem rotate_completes {r : BitVec (shiftWidth wide)} {cf of : Bool} (hop : op.writesZs = false)
    (hr : shiftResult op s.cf (rmVal (shiftWidth wide) s) (c.count s) = ⟨r, cf, of⟩) :
    ∃ t : State, exec (shiftInstr op wide c) s = .next t ∧ RmSet (shiftWidth wide) s t r ∧
      CarryOverflow s t cf of ∧ IntEnded s t s.next := by
  obtain ⟨t, hexec, hset, hend, hflags, -⟩ := shift_completes (op := op) h hc
  rw [hr] at hset hflags
  exact ⟨t, hexec, hset, hflags hop, hend⟩

/-- A shift writes its result and the four flags (R297 to R299). -/
theorem shiftOp_completes {r : BitVec (shiftWidth wide)} {cf of : Bool} (hop : op.writesZs = true)
    (hr : shiftResult op s.cf (rmVal (shiftWidth wide) s) (c.count s) = ⟨r, cf, of⟩) :
    ∃ t : State, exec (shiftInstr op wide c) s = .next t ∧ RmSet (shiftWidth wide) s t r ∧
      FlagsOf s t cf of r ∧ IntEnded s t s.next := by
  obtain ⟨t, hexec, hset, hend, -, hflags⟩ := shift_completes (op := op) h hc
  rw [hr] at hset hflags
  exact ⟨t, hexec, hset, hflags hop, hend⟩

end

/-! ### Rotates as numbers -/

theorem toNat_rotl {k : Nat} (v : BitVec k) (j : Nat) : (rotl v j).toNat = rotlNat k v.toNat j := by
  have hlt : v.toNat >>> (k - j) < 2 ^ k := (Nat.shiftRight_le ..).trans_lt v.isLt
  rw [rotl, rotlNat, BitVec.toNat_or, BitVec.toNat_shiftLeft, BitVec.toNat_ushiftRight, Nat.or_mod_two_pow,
    Nat.mod_eq_of_lt hlt]

theorem toNat_rotr {k : Nat} (v : BitVec k) (j : Nat) : (rotr v j).toNat = rotrNat k v.toNat j :=
  toNat_rotl v _

theorem toNat_withCarry {w : Nat} (c : Bool) (a : BitVec w) : (withCarry c a).toNat = c.toNat * 2 ^ w + a.toNat := by
  rw [withCarry, BitVec.toNat_append, ← Nat.shiftLeft_add_eq_or_of_lt a.isLt, Nat.shiftLeft_eq, BitVec.toNat_ofBool]

theorem toNat_low {k : Nat} (w : Nat) (x : BitVec k) : (x.extractLsb' 0 w).toNat = x.toNat % 2 ^ w := by
  rw [BitVec.extractLsb'_toNat, Nat.shiftRight_zero]

section
variable {w : Nat} (c : Bool) (a : BitVec w) (n : Nat)

theorem shiftResult_rol : shiftResult .rol c a n =
    let r := rotlNat w a.toNat (n % w)
    ⟨BitVec.ofNat w r, r.testBit 0, r.testBit (w - 1) ^^ r.testBit 0⟩ := by
  simp only [shiftResult, ← toNat_rotl, BitVec.testBit_toNat, BitVec.ofNat_toNat, BitVec.setWidth_eq,
    BitVec.msb_eq_getLsbD_last]

theorem shiftResult_ror : shiftResult .ror c a n =
    let r := rotrNat w a.toNat (n % w)
    ⟨BitVec.ofNat w r, r.testBit (w - 1), r.testBit (w - 1) ^^ r.testBit (w - 2)⟩ := by
  simp only [shiftResult, secondBit, ← toNat_rotr, BitVec.testBit_toNat, BitVec.ofNat_toNat, BitVec.setWidth_eq,
    BitVec.msb_eq_getLsbD_last]

theorem shiftResult_rcl : shiftResult .rcl c a n =
    let x := rotlNat (w + 1) (c.toNat * 2 ^ w + a.toNat) (n % (w + 1))
    let r := x % 2 ^ w
    ⟨BitVec.ofNat w r, x.testBit w, r.testBit (w - 1) ^^ x.testBit w⟩ := by
  simp only [shiftResult, ← toNat_withCarry, Nat.add_comm w 1, ← toNat_rotl, ← toNat_low, BitVec.testBit_toNat,
    BitVec.ofNat_toNat, BitVec.setWidth_eq, BitVec.msb_eq_getLsbD_last]

theorem shiftResult_rcr : shiftResult .rcr c a n =
    let x := rotrNat (w + 1) (c.toNat * 2 ^ w + a.toNat) (n % (w + 1))
    let r := x % 2 ^ w
    ⟨BitVec.ofNat w r, x.testBit w, r.testBit (w - 1) ^^ r.testBit (w - 2)⟩ := by
  simp only [shiftResult, secondBit, ← toNat_withCarry, Nat.add_comm w 1, ← toNat_rotr, ← toNat_low,
    BitVec.testBit_toNat, BitVec.ofNat_toNat, BitVec.setWidth_eq, BitVec.msb_eq_getLsbD_last]

/-! ### Shifts as numbers -/

theorem shiftResult_shl : shiftResult .shl c a n =
    let r := BitVec.ofNat w (a.toNat * 2 ^ n)
    let cf := decide (n ≤ w) && a.toNat.testBit (w - n)
    ⟨r, cf, r.msb ^^ cf⟩ := by
  have hval : a <<< n = BitVec.ofNat w (a.toNat * 2 ^ n) := by
    apply BitVec.eq_of_toNat_eq
    rw [BitVec.toNat_shiftLeft, Nat.shiftLeft_eq, BitVec.toNat_ofNat]
  simp only [shiftResult, hval, BitVec.testBit_toNat]

theorem shiftResult_shr : shiftResult .shr c a n =
    ⟨BitVec.ofNat w (a.toNat / 2 ^ n), decide (n ≤ w) && a.toNat.testBit (n - 1), a.msb⟩ := by
  have hval : a >>> n = BitVec.ofNat w (a.toNat / 2 ^ n) := by
    rw [← Nat.shiftRight_eq_div_pow, ← BitVec.toNat_ushiftRight, BitVec.ofNat_toNat, BitVec.setWidth_eq]
  simp only [shiftResult, hval, BitVec.testBit_toNat]

theorem shiftResult_sar : shiftResult .sar c a n =
    ⟨BitVec.ofInt w (a.toInt / 2 ^ n), if n ≤ w then a.toNat.testBit (n - 1) else a.msb, false⟩ := by
  have hval : a.sshiftRight n = BitVec.ofInt w (a.toInt / 2 ^ n) := by
    rw [BitVec.sshiftRight, Int.shiftRight_eq_div_pow]
    norm_cast
  simp only [shiftResult, hval, BitVec.testBit_toNat]

end

/-- Settles O32. -/
theorem rotatesComplete : Obligations.RotatesComplete := by
  unfold Obligations.RotatesComplete
  intro wide c s h hc
  exact ⟨rotate_completes h hc rfl (shiftResult_rol ..), rotate_completes h hc rfl (shiftResult_ror ..),
    rotate_completes h hc rfl (shiftResult_rcl ..), rotate_completes h hc rfl (shiftResult_rcr ..)⟩

/-- Settles O33. -/
theorem shiftsComplete : Obligations.ShiftsComplete := by
  unfold Obligations.ShiftsComplete
  intro wide c s h hc
  exact ⟨shiftOp_completes h hc rfl (shiftResult_shl ..), shiftOp_completes h hc rfl (shiftResult_shr ..),
    shiftOp_completes h hc rfl (shiftResult_sar ..)⟩

end Sys2Proof.Proofs
end

section
/-! PROOFS. The stack and control flow. -/

namespace Sys2Proof.Proofs

open Sys2Proof.Machine Sys2Proof.Claims Sys2Proof.Laws

/-! ### PUSH, POP and LEAVE -/

/-- Settles O34. -/
theorem pushCompletes : Obligations.PushCompletes := by
  unfold Obligations.PushCompletes
  refine fun s h => ⟨?_, ?_, ?_, fun hrm => ?_⟩
  · exact exec_completes rfl (pushValue_fits (s.gpr s.ops.reg) h)
  · rw [← imm32]
    exact exec_completes rfl (pushValue_fits (s.imm 32) h)
  · rw [← imm32]
    exact exec_completes rfl (pushValue_fits (s.imm 32) h)
  · exact exec_completes rfl ((pushRm_fits hrm).symm ▸ pushValue_fits (rmVal 32 s) h)

/-- ESP advanced, and then the register `r` written. -/
theorem popTo_completes {i : Instr} {s : State} {r : Reg} {v : Word} {res : Except Fault State}
    (hexec : exec i s = finish s res)
    (hres : res = .ok ((s.setGpr 4 (s.gpr 4 + 4)).setGpr r v).complete) :
    ∃ t : State, exec i s = .next t ∧ t.gpr r = v ∧ (r ≠ 4 → t.gpr 4 = s.gpr 4 + 4) ∧ RegsSameBut [4, r] s t ∧
      MemSame s t ∧ t.flags = s.flags ∧ IntEnded s t s.next := by
  refine ⟨_, exec_next hexec hres, gpr_setGpr_self _ r v, fun hr => ?_, fun j hj => ?_, fun _ => rfl, rfl,
    intEnded_complete rfl⟩
  · rw [complete_gpr, gpr_setGpr_other _ _ hr.symm, gpr_setGpr_self]
  · obtain ⟨h4, hr⟩ : j ≠ 4 ∧ j ≠ r := by simpa using hj
    rw [complete_gpr, gpr_setGpr_other _ _ hr, gpr_setGpr_other _ _ h4]

/-- POP r/m32 writes its operand, the address formed with the advanced ESP (R325). -/
theorem popRm_eq {s : State} (h : fits s (s.gpr 4) 4 = true) :
    popRm s = (writeRm acc32 (s.setGpr 4 (s.gpr 4 + 4)) s.ops.rm (BitVec.ofNat 32 (bytesAt s (s.gpr 4) 4))).map
      State.complete := by
  simp only [popRm, pop32_fits h]
  rfl

/-- Settles O35. -/
theorem popCompletes : Obligations.PopCompletes := by
  unfold Obligations.PopCompletes
  refine fun s => ⟨fun h => ⟨popTo_completes rfl (popReg_fits h), fun r hr => ?_, fun m hm hfits => ?_⟩, fun h => ?_⟩
  · exact popTo_completes rfl (by rw [popRm_eq h, hr]; rfl)
  · obtain ⟨u, hu, hstored, hrest⟩ := memWrite_fits (s := s.setGpr 4 (s.gpr 4 + 4))
      (BitVec.ofNat 32 (bytesAt s (s.gpr 4) 4)) hfits
    have hx : u.x = (s.setGpr 4 (s.gpr 4 + 4)).x := by rw [hrest]
    have hwrite : popRm s = .ok u.complete := by
      rw [popRm_eq h, hm, writeRm, hu]
      rfl
    refine ⟨_, exec_next rfl hwrite, MemStored.congr hstored rfl, (gpr_of_x hx 4).trans (gpr_setGpr_self s 4 _),
      fun j hj => ?_, ?_, ?_⟩
    · exact (gpr_of_x hx j).trans (gpr_setGpr_other s _ (List.mem_singleton.not.1 hj))
    · show u.flags = s.flags
      rw [hrest]
      rfl
    · refine intEnded_complete ?_
      conv_lhs => rw [hrest]
      conv_rhs => rw [hrest]
      rfl
  · refine ⟨_, exec_next rfl (leaveFrame_fits h), ?_, gpr_setGpr_self _ 5 _, fun j hj => ?_, fun _ => rfl, rfl,
      intEnded_complete rfl⟩
    · rw [complete_gpr, gpr_setGpr_other _ _ (by decide), gpr_setGpr_self]
    · obtain ⟨h4, h5⟩ : j ≠ 4 ∧ j ≠ 5 := by simpa using hj
      rw [complete_gpr, gpr_setGpr_other _ _ h5, gpr_setGpr_other _ _ h4]

/-! ### PUSHAD and POPAD -/

theorem read_eq_readLE (m : Memory) (n : Nat) : ∀ (a k : Nat), k < n →
    m.read (a + k) = BitVec.ofNat 8 (m.readLE a n / 256 ^ k) := by
  induction n with
  | zero => exact fun _ _ hk => absurd hk (Nat.not_lt_zero _)
  | succ n ih =>
    intro a k hk
    have hbyte : (m.read a).toNat < 256 := (m.read a).isLt
    cases k with
    | zero =>
      apply BitVec.eq_of_toNat_eq
      rw [BitVec.toNat_ofNat, Memory.readLE, Nat.pow_zero, Nat.div_one, Nat.add_zero]
      omega
    | succ k =>
      have hdiv : m.readLE a (n + 1) / 256 ^ (k + 1) = m.readLE (a + 1) n / 256 ^ k := by
        rw [Nat.pow_succ', ← Nat.div_div_eq_div_mul, Memory.readLE]
        congr 1
        omega
      rw [hdiv, ← ih (a + 1) k (Nat.lt_of_succ_lt_succ hk), Nat.add_assoc, Nat.add_comm 1 k]

/-- Memory holds the bytes that are read from it. -/
theorem memStored_self (s : State) (a : Word) (n : Nat) : MemStored s s a n (bytesAt s a n) :=
  ⟨fun k hk => by rw [bytesAt_eq, ← read_eq_readLE s.mem n a.toNat k hk], fun _ _ => rfl⟩

/-- The bytes from `a' = a + o` on are those of the stored value from its byte `o` on. -/
theorem bytesAt_stored {s t : State} {a a' : Word} {n v o m : Nat} (h : MemStored s t a n v)
    (ha : a'.toNat = a.toNat + o) (hm : o + m ≤ n) : bytesAt t a' m = v / 256 ^ o % 256 ^ m := by
  have hsub : MemStored t t a' m (v / 256 ^ o) := by
    refine ⟨fun k hk => ?_, fun _ _ => rfl⟩
    rw [ha, Nat.add_assoc, h.1 (o + k) (by omega), Nat.div_div_eq_div_mul, Nat.pow_add]
  exact MemStored.bytesAt hsub

/-- The word at byte offset `4 * j` of a stored 256-bit image. -/
theorem wordAt_stored {s t : State} {a a' : Word} {v : BitVec 256} {j : Nat} (h : MemStored s t a 32 v.toNat)
    (ha : a'.toNat = a.toNat + 4 * j) (hj : j < 8) : bytesAt t a' 4 = (v.extractLsb' (32 * j) 32).toNat := by
  rw [bytesAt_stored h ha (by omega), BitVec.extractLsb'_toNat, Nat.shiftRight_eq_div_pow, Nat.pow_mul, Nat.pow_mul]
  rfl

theorem pushadImage_word (s : State) {k : Nat} (hk : k < 8) :
    (pushadImage s).extractLsb' (32 * (7 - k)) 32 = s.gpr (BitVec.ofNat 3 k) := by
  apply BitVec.eq_of_getLsbD_eq
  intro i hi
  rw [BitVec.getLsbD_extractLsb', pushadImage]
  simp only [BitVec.getLsbD_append]
  interval_cases k <;> simp [hi] <;> grind

/-- An address inside a range of 32 bytes that does not reach past `2 ^ 32`. -/
theorem toNat_add_ofNat {a : Word} {o : Nat} (ha : a.toNat + 32 ≤ 2 ^ 32) (ho : o < 32) :
    (a + BitVec.ofNat 32 o).toNat = a.toNat + o := by
  bv_omega

/-- Settles O36. -/
theorem pushadPopadComplete : Obligations.PushadPopadComplete := by
  unfold Obligations.PushadPopadComplete
  refine fun s hconfig => ⟨fun h => ?_, fun h => ?_⟩
  · obtain ⟨t, ht, hstored, hesp, hregs, hflags, hend⟩ := pushAll_fits h
    have hfits := (fits_iff s _ _).1 h
    refine ⟨t, exec_next rfl ht, fun k hk => ?_, hstored.2, hesp, hregs, hflags, hend⟩
    have hplace : s.gpr 4 - BitVec.ofNat 32 (4 * (k + 1)) = s.gpr 4 - 32 + BitVec.ofNat 32 (4 * (7 - k)) := by
      interval_cases k <;> bv_omega
    rw [hplace, wordAt_stored hstored (toNat_add_ofNat (hfits.trans hconfig.2) (by omega)) (by omega),
      pushadImage_word s hk]
  · obtain ⟨t, ht, hregs, hesp, hmem, hflags, hend⟩ := popAll_fits h
    have hfits := (fits_iff s _ _).1 h
    refine ⟨t, exec_next rfl ht, fun k hk h4 => ?_, hesp, hmem, hflags, hend⟩
    have hstored : MemStored s s (s.gpr 4) 32 (BitVec.ofNat 256 (bytesAt s (s.gpr 4) 32)).toNat := by
      rw [BitVec.toNat_ofNat, Nat.mod_eq_of_lt ((bytesAt_lt s (s.gpr 4) 32).trans_eq (by norm_num))]
      exact memStored_self s (s.gpr 4) 32
    rw [hregs k hk h4, wordAt_stored hstored (toNat_add_ofNat (hfits.trans hconfig.2) (by omega)) (by omega)]

/-! ### Transfers -/

/-- The condition of a condition code (R340). -/
def condOf : Nat → Cond
  | 0x0 => .o
  | 0x1 => .no
  | 0x2 => .b
  | 0x3 => .ae
  | 0x4 => .e
  | 0x5 => .ne
  | 0x6 => .be
  | 0x7 => .a
  | 0x8 => .s
  | 0x9 => .ns
  | 0xC => .l
  | 0xD => .ge
  | 0xE => .le
  | _ => .g

theorem jump_completes {i : Instr} {s : State} {target : Word} (hexec : exec i s = .next (s.jump target)) :
    ∃ t : State, exec i s = .next t ∧ RegsSame s t ∧ MemSame s t ∧ t.flags = s.flags ∧ IntEnded s t target :=
  ⟨_, hexec, fun _ => rfl, fun _ => rfl, rfl, intEnded_jump target rfl⟩

theorem jumpIf_eq (c : Cond) (s : State) : jumpIf c s = s.jump (if c.holds s then s.relTarget else s.next) := by
  rw [jumpIf]
  split <;> rfl

section
variable (s : State)

theorem exec_jccShort : ∀ p ∈ jccShortRows,
    exec p.1 s = .next (jumpIf (condOf p.2) s) ∧ (condOf p.2).holds s = condition p.2 s := by
  simp only [jccShortRows, List.forall_mem_cons]
  exact ⟨⟨rfl, rfl⟩, ⟨rfl, rfl⟩, ⟨rfl, rfl⟩, ⟨rfl, rfl⟩, ⟨rfl, rfl⟩, ⟨rfl, rfl⟩, ⟨rfl, rfl⟩, ⟨rfl, rfl⟩, ⟨rfl, rfl⟩,
    ⟨rfl, rfl⟩, ⟨rfl, rfl⟩, ⟨rfl, rfl⟩, ⟨rfl, rfl⟩, ⟨rfl, rfl⟩, List.forall_mem_nil _⟩

theorem exec_jccNear : ∀ p ∈ jccNearRows,
    exec p.1 s = .next (jumpIf (condOf p.2) s) ∧ (condOf p.2).holds s = condition p.2 s := by
  simp only [jccNearRows, List.forall_mem_cons]
  exact ⟨⟨rfl, rfl⟩, ⟨rfl, rfl⟩, ⟨rfl, rfl⟩, ⟨rfl, rfl⟩, ⟨rfl, rfl⟩, ⟨rfl, rfl⟩, ⟨rfl, rfl⟩, ⟨rfl, rfl⟩, ⟨rfl, rfl⟩,
    ⟨rfl, rfl⟩, ⟨rfl, rfl⟩, ⟨rfl, rfl⟩, ⟨rfl, rfl⟩, ⟨rfl, rfl⟩, List.forall_mem_nil _⟩

theorem exec_setcc : ∀ p ∈ setccRows,
    exec p.1 s = finish s (setIf (condOf p.2) s) ∧ (condOf p.2).holds s = condition p.2 s := by
  simp only [setccRows, List.forall_mem_cons]
  exact ⟨⟨rfl, rfl⟩, ⟨rfl, rfl⟩, ⟨rfl, rfl⟩, ⟨rfl, rfl⟩, ⟨rfl, rfl⟩, ⟨rfl, rfl⟩, ⟨rfl, rfl⟩, ⟨rfl, rfl⟩, ⟨rfl, rfl⟩,
    ⟨rfl, rfl⟩, ⟨rfl, rfl⟩, ⟨rfl, rfl⟩, ⟨rfl, rfl⟩, ⟨rfl, rfl⟩, List.forall_mem_nil _⟩

theorem exec_cmov : ∀ p ∈ cmovRows,
    exec p.1 s = finish s (moveIf (condOf p.2) s) ∧ (condOf p.2).holds s = condition p.2 s := by
  simp only [cmovRows, List.forall_mem_cons]
  exact ⟨⟨rfl, rfl⟩, ⟨rfl, rfl⟩, ⟨rfl, rfl⟩, ⟨rfl, rfl⟩, ⟨rfl, rfl⟩, ⟨rfl, rfl⟩, ⟨rfl, rfl⟩, ⟨rfl, rfl⟩, ⟨rfl, rfl⟩,
    ⟨rfl, rfl⟩, ⟨rfl, rfl⟩, ⟨rfl, rfl⟩, ⟨rfl, rfl⟩, ⟨rfl, rfl⟩, List.forall_mem_nil _⟩

end

/-- Settles O37. -/
theorem jumpsComplete : Obligations.JumpsComplete := by
  unfold Obligations.JumpsComplete
  intro s
  simp only [ofNat_add_toNat]
  have hjcc : ∀ {i : Instr} {cc : Nat},
      exec i s = .next (jumpIf (condOf cc) s) ∧ (condOf cc).holds s = condition cc s →
      exec i s = .next (s.jump (if condition cc s then s.next + s.ops.rel else s.next)) := fun ⟨hexec, hcond⟩ => by
    rw [hexec, jumpIf_eq, hcond]
    rfl
  exact ⟨jump_completes rfl, jump_completes rfl, fun h => jump_completes (exec_next rfl (jumpRm_fits h)),
    fun p hp => jump_completes (hjcc (exec_jccShort s p hp)), fun p hp => jump_completes (hjcc (exec_jccNear s p hp))⟩

/-- Settles O38. -/
theorem callsAndReturnsComplete : Obligations.CallsAndReturnsComplete := by
  unfold Obligations.CallsAndReturnsComplete
  refine fun s => ⟨fun h => ⟨exec_completes rfl (callTo_fits s.relTarget h), fun hrm => ?_⟩, fun h => ⟨?_, ?_⟩⟩
  · exact exec_completes rfl ((callRm_fits hrm).symm ▸ callTo_fits (rmVal 32 s) h)
  · exact exec_completes rfl (returnBy_fits 0 h)
  · rw [← imm32]
    exact exec_completes rfl (returnBy_fits (s.imm 32) h)

theorem regSet_refl (s : State) (r : Reg) : RegSet 32 s s r (s.gpr r) :=
  ⟨(gpr_eq s r).symm, fun _ _ _ => rfl⟩

/-- Settles O39. -/
theorem setAndMoveOnCondition : Obligations.SetAndMoveOnCondition := by
  unfold Obligations.SetAndMoveOnCondition
  refine ⟨fun p hp s h => ?_, fun p hp s h => ?_⟩
  · obtain ⟨hexec, hcond⟩ := exec_setcc s p hp
    rw [← hcond]
    exact exec_completes hexec (storeRm_fits faithful8 _ h)
  · obtain ⟨hexec, hcond⟩ := exec_cmov s p hp
    refine exec_completes hexec ⟨_, moveIf_fits (condOf p.2) h, ?_⟩
    rw [hcond]
    split
    · obtain ⟨⟨hreg, hmem⟩, hdone⟩ := setReg_complete faithful32 s s.ops.reg (rmVal 32 s)
      exact ⟨hreg, hmem, hdone⟩
    · exact ⟨RegSet.congr (regSet_refl s s.ops.reg) rfl, fun _ => rfl, rfl, intEnded_complete rfl⟩

/-- Settles O40: each of the ten rows is the fault itself. -/
theorem parityRowsFault : Obligations.ParityRowsFault := by
  unfold Obligations.ParityRowsFault
  simp only [parityRows, List.forall_mem_cons]
  exact ⟨fun _ => rfl, fun _ => rfl, fun _ => rfl, fun _ => rfl, fun _ => rfl, fun _ => rfl, fun _ => rfl, fun _ => rfl,
    fun _ => rfl, fun _ => rfl, List.forall_mem_nil _⟩

/-! ### Software interrupts -/

theorem interrupt_handled {s : State} (n : Byte) (h : s.config.intHandler = true) :
    HandlerLeft s (hostInterrupt s.draws n { s with eip := s.next }) (s.interrupt n) ∧
      (s.interrupt n).instrCount = s.instrCount + 1 := by
  have hint : s.interrupt n = (({ s with eip := s.next } : State).applyHost
      (hostInterrupt s.draws n { s with eip := s.next })).retire := if_pos h
  rw [hint]
  exact ⟨applyHost_left s.clearDecode _ (clearDecode_idle s), rfl⟩

/-- Settles O41. -/
theorem softwareInterrupts : Obligations.SoftwareInterrupts := by
  unfold Obligations.SoftwareInterrupts
  refine ⟨?_, faultTaken_deliver⟩
  have hint : ∀ {i : Instr} {s : State} {n : Byte}, exec i s = .next (s.interrupt n) →
      (s.config.intHandler = true → ∃ t : State, exec i s = .next t ∧
        HandlerLeft s (hostInterrupt s.draws n { s with eip := s.next }) t ∧ t.instrCount = s.instrCount + 1) ∧
      (s.config.intHandler = false →
        exec i s = .next { s.clearDecode with terminal := some (.unhandledInterrupt n s.eip) }) := fun hexec =>
    ⟨fun h => ⟨_, hexec, interrupt_handled _ h⟩, fun h => hexec.trans (congrArg _ (interrupt_terminal _ h))⟩
  simp only [List.forall_mem_cons]
  exact ⟨fun _ => hint rfl, fun _ => hint rfl, List.forall_mem_nil _⟩

/-! ### Flags and idle instructions -/

/-- The instruction changed nothing but flag bits in `l` and perhaps `halted`. -/
def Keeps (s : State) (i : Instr) (l : List Nat) (t : State) : Prop :=
  exec i s = .next t ∧ RegsSame s t ∧ MemSame s t ∧ FlagsSameBut l s t ∧ X87Same s t ∧
    t.draws = s.draws ∧ t.eip = s.next ∧ t.instrCount = s.instrCount + 1 ∧ t.idle ∧
    t.config = s.config ∧ t.terminal = s.terminal

theorem keeps_complete {s : State} {i : Instr} (hexec : exec i s = .next s.complete) : Keeps s i [] s.complete :=
  ⟨hexec, fun _ => rfl, fun _ => rfl, fun _ _ => rfl, ⟨rfl, rfl, rfl, rfl, rfl⟩, rfl, rfl, rfl,
    ⟨rfl, rfl, rfl, rfl, rfl⟩, rfl, rfl⟩

/-- One flag bit written, and nothing else (R357 to R361). -/
theorem keeps_setBit {s : State} {i : Instr} {n : Nat} {b : Bool} (hn : n < 32)
    (hexec : exec i s = .next ({ s with flags := setBit s.flags n b } : State).complete) :
    ∃ t : State, Keeps s i [n] t ∧ t.flags.getLsbD n = b ∧ t.halted = s.halted :=
  ⟨_, ⟨hexec, fun _ => rfl, fun _ => rfl,
    fun _ hk => getLsbD_setBit_other s.flags b (List.mem_singleton.not.1 hk), ⟨rfl, rfl, rfl, rfl, rfl⟩, rfl, rfl, rfl,
    ⟨rfl, rfl, rfl, rfl, rfl⟩, rfl, rfl⟩, (getLsbD_setBit s.flags n b n).trans (if_pos ⟨rfl, hn⟩), rfl⟩

/-- Settles O42. -/
theorem flagAndIdleInstructions : Obligations.FlagAndIdleInstructions := by
  unfold Obligations.FlagAndIdleInstructions
  intro s
  refine ⟨⟨{ s.complete with halted := true }, ⟨rfl, (keeps_complete (i := .nop) rfl).2⟩, rfl⟩, ?_,
    keeps_setBit (by decide) rfl, keeps_setBit (by decide) rfl, keeps_setBit (by decide) rfl,
    keeps_setBit (by decide) rfl, keeps_setBit (by decide) rfl⟩
  simp only [List.forall_mem_cons]
  exact ⟨⟨_, keeps_complete rfl, rfl⟩, ⟨_, keeps_complete rfl, rfl⟩, ⟨_, keeps_complete rfl, rfl⟩,
    ⟨_, keeps_complete rfl, rfl⟩, List.forall_mem_nil _⟩

end Sys2Proof.Proofs
end

section
/-! PROOFS. String instructions and the repeat prefix. -/

namespace Sys2Proof.Proofs

open Sys2Proof.Machine Sys2Proof.Claims Sys2Proof.Laws

/-! ### One body for the ten rows -/

/-- The accumulator's width (R380). -/
def elemAccess : (dword : Bool) → Access (elemWidth dword)
  | true => acc32
  | false => acc8

theorem faithful_elemAccess (dword : Bool) : Faithful (elemAccess dword) :=
  match dword with
  | true => faithful32
  | false => faithful8

/-- The body of a string row (R382 to R386). -/
def stringBody (op : StringOp) (dword : Bool) : State → Except Fault State :=
  match op with
  | .movs => movsBody (elemWidth dword)
  | .stos => stosBody (elemAccess dword)
  | .lods => lodsBody (elemAccess dword)
  | .scas => scasBody (elemAccess dword)
  | .cmps => cmpsBody (elemWidth dword)

/-- The early end of a string row (R381). -/
def stringStop : StringOp → State → Bool
  | .movs => neverStop
  | .stos => neverStop
  | .lods => neverStop
  | .scas => stopOnFlag
  | .cmps => stopOnFlag

theorem exec_stringInstr (op : StringOp) (dword : Bool) (s : State) :
    exec (stringInstr op dword) s = stringOp (stringBody op dword) (stringStop op) s := by
  cases op <;> cases dword <;> rfl

/-- Without a repeat prefix the body is performed once (R380). -/
theorem exec_once (op : StringOp) (dword : Bool) {s : State} (h : s.rep = .none) :
    exec (stringInstr op dword) s = finish s ((stringBody op dword s).map State.complete) := by
  rw [exec_stringInstr, stringOp, if_pos h]

/-- With one, the loop of R381 is counted by ECX. -/
theorem exec_repeated (op : StringOp) (dword : Bool) {s : State} (h : s.rep ≠ .none) :
    exec (stringInstr op dword) s =
      .next (finishRep (repLoop (stringBody op dword) (stringStop op) (s.gpr 1).toNat s)) := by
  rw [exec_stringInstr, stringOp, if_neg h]

theorem stringStop_eq (op : StringOp) {s t : State} {rep : Rep} (hrep : s.rep = rep) (hflags : t.flags = s.flags) :
    stringStop op s = op.endsEarly rep t := by
  have hzf : t.zf = s.zf := by rw [State.zf, hflags]; rfl
  cases op <;> cases rep <;> simp [stringStop, neverStop, stopOnFlag, StringOp.endsEarly, hrep, hzf]

/-! ### What a body does -/

theorem bytesAt_lt_elem (dword : Bool) (s : State) (a : Word) :
    bytesAt s a (elemWidth dword / 8) < 2 ^ elemWidth dword :=
  match dword with
  | true => bytesAt_lt s a 4
  | false => bytesAt_lt s a 1

/-- AL and EAX are the lowest bits of `x[0]` (R33). -/
theorem regVal_elem (dword : Bool) (s : State) :
    regVal (elemWidth dword) s 0 = (s.gpr 0).extractLsb' 0 (elemWidth dword) := by
  cases dword <;> rfl

/-- What an accumulator write changes (R33). -/
theorem elemAccess_set (dword : Bool) (s : State) (v : BitVec (elemWidth dword)) :
    let t := (elemAccess dword).setReg s 0 v
    regVal (elemWidth dword) t 0 = v ∧
      (∀ n : Nat, elemWidth dword ≤ n → (t.gpr 0).getLsbD n = (s.gpr 0).getLsbD n) ∧ RegsSameBut [0] s t := by
  obtain ⟨hreg, hrest⟩ := (faithful_elemAccess dword).set s 0 v
  have hlow : aliasLow (elemWidth dword) 0 = 0 := by cases dword <;> rfl
  have halias : aliasReg (elemWidth dword) 0 = 0 := by cases dword <;> rfl
  rw [hlow, halias] at hrest
  refine ⟨hreg, fun n hn => hrest 0 n (by omega), fun i hi => BitVec.eq_of_getLsbD_eq fun n _ => hrest i n ?_⟩
  exact fun h => hi (List.mem_singleton.2 h.1)

theorem lodsBody_did (dword : Bool) {s : State} (h : StringOp.fits .lods dword s = true) :
    ∃ t : State, stringBody .lods dword s = .ok t ∧ StringOp.Did .lods dword s t ∧ BodyKept s t := by
  let v := BitVec.ofNat (elemWidth dword) (bytesAt s (sourceAddr s) (elemWidth dword / 8))
  obtain ⟨hreg, hhigh, hother⟩ := elemAccess_set dword s v
  have hrest := (faithful_elemAccess dword).rest s 0 v
  have hflags : ((elemAccess dword).setReg s 0 v).flags = s.flags := by rw [hrest]
  have hset : ∀ j : Reg, j ≠ 6 → (advance (elemWidth dword / 8) ((elemAccess dword).setReg s 0 v) 6).gpr j =
      ((elemAccess dword).setReg s 0 v).gpr j := fun j hj => by rw [gpr_advance, if_neg hj]
  refine ⟨_, lodsBody_fits h, ⟨?_, fun n hn => ?_, ?_, fun j hj => ?_, ?_, hflags⟩, ?_⟩
  · rw [regVal_elem, hset 0 (by decide), ← regVal_elem, hreg]
  · rw [hset 0 (by decide), hhigh n hn]
  · rw [gpr_advance, if_pos rfl, hother 6 (by decide)]
    exact pointerStep_eq s _ _ 6 hflags
  · obtain ⟨h0, h6⟩ : j ≠ 0 ∧ j ≠ 6 := by simpa using hj
    rw [hset j h6, hother j (List.mem_singleton.not.2 h0)]
  · refine memSame_of ?_
    show ((elemAccess dword).setReg s 0 v).mem = s.mem
    rw [hrest]
  · unfold BodyKept
    conv_lhs => rw [advance, hrest]
    conv_rhs => rw [advance, hrest]
    rfl

theorem scasBody_did (dword : Bool) {s : State} (h : StringOp.fits .scas dword s = true) :
    ∃ t : State, stringBody .scas dword s = .ok t ∧ StringOp.Did .scas dword s t ∧ BodyKept s t := by
  let r := subResult (regVal (elemWidth dword) s 0)
    (BitVec.ofNat (elemWidth dword) (bytesAt s (s.gpr 7) (elemWidth dword / 8)))
  refine ⟨_, scasBody_fits (faithful_elemAccess dword) h,
    ⟨comparedFlags_of (flagsOf_setAlu r rfl), ?_, fun j hj => ?_, fun _ => rfl⟩, rfl⟩
  · rw [gpr_advance, if_pos rfl, pointerStep_congr _ (df_setAlu s r)]
    exact pointerStep_eq s s _ 7 rfl
  · rw [gpr_advance, if_neg (List.mem_singleton.not.1 hj)]
    rfl

theorem cmpsBody_did (dword : Bool) {s : State} (h : StringOp.fits .cmps dword s = true) :
    ∃ t : State, stringBody .cmps dword s = .ok t ∧ StringOp.Did .cmps dword s t ∧ BodyKept s t := by
  obtain ⟨hsrc, hdst⟩ := Bool.and_eq_true_iff.1 h
  let r := subResult (BitVec.ofNat (elemWidth dword) (bytesAt s (sourceAddr s) (elemWidth dword / 8)))
    (BitVec.ofNat (elemWidth dword) (bytesAt s (s.gpr 7) (elemWidth dword / 8)))
  have hstep : pointerStep (advance (elemWidth dword / 8) (s.setAlu r) 6) (elemWidth dword / 8) =
      pointerStep s (elemWidth dword / 8) := pointerStep_congr _ (df_setAlu s r)
  refine ⟨_, cmpsBody_fits hsrc hdst,
    ⟨comparedFlags_of (flagsOf_setAlu r rfl), ?_, ?_, fun j hj => ?_, fun _ => rfl⟩, rfl⟩
  · rw [gpr_advance, if_neg (by decide), gpr_advance, if_pos rfl, pointerStep_congr _ (df_setAlu s r)]
    exact pointerStep_eq s s _ 6 rfl
  · rw [gpr_advance, if_pos rfl, gpr_advance, if_neg (by decide), hstep]
    exact pointerStep_eq s s _ 7 rfl
  · obtain ⟨h6, h7⟩ : j ≠ 6 ∧ j ≠ 7 := by simpa using hj
    rw [gpr_advance, if_neg h7, gpr_advance, if_neg h6]
    rfl

/-- With its accesses inside memory a body does what its rule says (R382 to R386). -/
theorem stringBody_fits (op : StringOp) (dword : Bool) {s : State} (h : op.fits dword s = true) :
    ∃ t : State, stringBody op dword s = .ok t ∧ op.Did dword s t ∧ BodyKept s t := by
  cases op with
  | movs =>
    obtain ⟨hsrc, hdst⟩ := Bool.and_eq_true_iff.1 h
    obtain ⟨t, hok, hstored, hesi, hedi, hregs, hflags, hkept⟩ := movsBody_fits hsrc hdst
    rw [BitVec.toNat_ofNat, Nat.mod_eq_of_lt (bytesAt_lt_elem dword s _)] at hstored
    exact ⟨t, hok, ⟨hstored, hesi, hedi, hregs, hflags⟩, hkept⟩
  | stos =>
    obtain ⟨t, hok, hstored, hedi, hregs, hflags, hkept⟩ := stosBody_fits (faithful_elemAccess dword) h
    exact ⟨t, hok, ⟨hstored, hedi, hregs, hflags⟩, hkept⟩
  | lods => exact lodsBody_did dword h
  | scas => exact scasBody_did dword h
  | cmps => exact cmpsBody_did dword h

/-- `Did` looks at registers, memory and flags alone. -/
theorem did_congr {op : StringOp} {dword : Bool} {s t t' : State} (h : op.Did dword s t) (hx : t'.x = t.x)
    (hf : t'.flags = t.flags) (hm : t'.mem = t.mem) : op.Did dword s t' := by
  have hsame : ({ t with x := t'.x, flags := t'.flags, mem := t'.mem } : State) = t := by rw [hx, hf, hm]
  rw [← hsame] at h
  cases op <;> exact h

/-- Settles O43. -/
theorem stringsOnceComplete : Obligations.StringsOnceComplete := by
  unfold Obligations.StringsOnceComplete
  intro op dword s hrep hfits
  obtain ⟨t, hok, hdid, hkept⟩ := stringBody_fits op dword hfits
  refine ⟨t.complete, exec_next (exec_once op dword hrep) ?_, did_congr hdid rfl rfl rfl, intEnded_complete hkept⟩
  rw [hok]
  rfl

/-! ### The first access outside memory -/

theorem memRead_bind_not_fits {α : Type} {w : Nat} {s : State} {a : Word} (h : fits s a (w / 8) = false)
    (k : BitVec w → Except Fault α) :
    s.memRead w a >>= k = .error (.memoryFault a (w / 8) s.config.memSize s.eip) := by
  rw [memRead_not_fits h]
  rfl

theorem memWrite_bind_not_fits {α : Type} {w : Nat} {s : State} {a : Word} (v : BitVec w)
    (h : fits s a (w / 8) = false) (k : State → Except Fault α) :
    s.memWrite a v >>= k = .error (.memoryFault a (w / 8) s.config.memSize s.eip) := by
  rw [memWrite_not_fits v h]
  rfl

/-- The body of a row with an access outside memory raises the fault of the first one (R382 to R386). -/
theorem stringBody_not_fits (op : StringOp) (dword : Bool) {s : State} (h : op.fits dword s = false) :
    stringBody op dword s =
      .error (.memoryFault (op.failedAddr dword s) (elemWidth dword / 8) s.config.memSize s.eip) := by
  cases op with
  | movs =>
    cases hsrc : fits s (sourceAddr s) (elemWidth dword / 8) with
    | false =>
      rw [StringOp.failedAddr, hsrc]
      exact memRead_bind_not_fits hsrc _
    | true =>
      have hdst : fits s (s.gpr 7) (elemWidth dword / 8) = false := by simpa [StringOp.fits, hsrc] using h
      rw [StringOp.failedAddr, hsrc]
      show s.memRead _ (sourceAddr s) >>= _ = _
      rw [memRead_fits hsrc]
      exact memWrite_bind_not_fits _ hdst _
  | stos => exact memWrite_bind_not_fits _ h _
  | lods => exact memRead_bind_not_fits h _
  | scas => exact memRead_bind_not_fits h _
  | cmps =>
    cases hsrc : fits s (sourceAddr s) (elemWidth dword / 8) with
    | false =>
      rw [StringOp.failedAddr, hsrc]
      exact memRead_bind_not_fits hsrc _
    | true =>
      have hdst : fits s (s.gpr 7) (elemWidth dword / 8) = false := by simpa [StringOp.fits, hsrc] using h
      rw [StringOp.failedAddr, hsrc]
      show s.memRead _ (sourceAddr s) >>= _ = _
      rw [memRead_fits hsrc]
      exact memRead_bind_not_fits hdst _

/-! ### One iteration -/

/-- The state with another repeat prefix. -/
def withRep (rep : Rep) (s : State) : State := { s with rep := rep }

theorem memWrite_withRep {w : Nat} (rep : Rep) (s : State) (a : Word) (v : BitVec w) :
    (withRep rep s).memWrite a v = (s.memWrite a v).map (withRep rep) := by
  simp only [State.memWrite]
  show (if s.inBounds a (w / 8) then _ else _) = _
  split <;> rfl

/-- No body looks at the repeat prefix. -/
theorem stringBody_withRep (op : StringOp) (dword : Bool) (rep : Rep) (s : State) :
    stringBody op dword (withRep rep s) = (stringBody op dword s).map (withRep rep) := by
  cases op with
  | movs =>
    show s.memRead (elemWidth dword) (srcAddr s) >>= _ = Except.map _ (s.memRead _ (srcAddr s) >>= _)
    cases s.memRead (elemWidth dword) (srcAddr s) with
    | error f => rfl
    | ok v =>
      show (withRep rep s).memWrite (dstAddr s) v >>= _ = Except.map _ (s.memWrite (dstAddr s) v >>= _)
      rw [memWrite_withRep]
      cases s.memWrite (dstAddr s) v <;> rfl
  | stos =>
    show (withRep rep s).memWrite (dstAddr s) ((elemAccess dword).reg (withRep rep s) 0) >>= _ =
      Except.map _ (s.memWrite (dstAddr s) ((elemAccess dword).reg s 0) >>= _)
    rw [(faithful_elemAccess dword).reg, (faithful_elemAccess dword).reg]
    show (withRep rep s).memWrite (dstAddr s) (regVal (elemWidth dword) s 0) >>= _ = _
    rw [memWrite_withRep]
    cases s.memWrite (dstAddr s) (regVal (elemWidth dword) s 0) <;> rfl
  | lods =>
    show s.memRead (elemWidth dword) (srcAddr s) >>= _ = Except.map _ (s.memRead _ (srcAddr s) >>= _)
    cases s.memRead (elemWidth dword) (srcAddr s) with
    | error f => rfl
    | ok v => cases dword <;> rfl
  | scas =>
    show s.memRead (elemWidth dword) (dstAddr s) >>= _ = Except.map _ (s.memRead _ (dstAddr s) >>= _)
    cases s.memRead (elemWidth dword) (dstAddr s) with
    | error f => rfl
    | ok v => cases dword <;> rfl
  | cmps =>
    show s.memRead (elemWidth dword) (srcAddr s) >>= _ = Except.map _ (s.memRead _ (srcAddr s) >>= _)
    cases s.memRead (elemWidth dword) (srcAddr s) with
    | error f => rfl
    | ok a =>
      show s.memRead (elemWidth dword) (dstAddr s) >>= _ = Except.map _ (s.memRead _ (dstAddr s) >>= _)
      cases s.memRead (elemWidth dword) (dstAddr s) <;> rfl

/-- No body writes ECX (R382 to R386). -/
theorem did_ecx {op : StringOp} {dword : Bool} {s t : State} (h : op.Did dword s t) : t.gpr 1 = s.gpr 1 := by
  cases op with
  | movs =>
    obtain ⟨-, -, -, hregs, -⟩ := h
    exact hregs 1 (by decide)
  | stos =>
    obtain ⟨-, -, hregs, -⟩ := h
    exact hregs 1 (by decide)
  | lods =>
    obtain ⟨-, -, -, hregs, -⟩ := h
    exact hregs 1 (by decide)
  | scas =>
    obtain ⟨-, -, hregs, -⟩ := h
    exact hregs 1 (by decide)
  | cmps =>
    obtain ⟨-, -, -, hregs, -⟩ := h
    exact hregs 1 (by decide)

/-- The repeated row, by what its first iteration does (R381). -/
theorem exec_iteration {op : StringOp} {dword : Bool} {s t : State} (hrep : s.rep ≠ .none) (hecx : s.gpr 1 ≠ 0)
    (hok : stringBody op dword s = .ok t) (h1 : t.gpr 1 = s.gpr 1) (hkept : BodyKept s t) :
    let u := t.setGpr 1 (t.gpr 1 - 1)
    exec (stringInstr op dword) s =
      if op.endsEarly s.rep t then .next u.complete else exec (stringInstr op dword) u := by
  intro u
  have hurep : u.rep = s.rep := by
    show t.rep = s.rep
    rw [hkept]
  have hpos : (s.gpr 1).toNat = (u.gpr 1).toNat + 1 := by
    rw [gpr_setGpr_self, h1]
    bv_omega
  have hloop := repLoop_ok (stringStop op) (u.gpr 1).toNat hok
  rw [exec_repeated op dword hrep, hpos, hloop, stringStop_eq op hurep (t := t) rfl]
  cases op.endsEarly s.rep t with
  | true => rfl
  | false => exact (exec_repeated op dword (hurep.symm ▸ hrep)).symm

/-- The state before an iteration, with its effects and the count (R381). -/
theorem afterIteration_eq {s t : State} (rep : Rep) (hkept : BodyKept s t) :
    afterIteration s (withRep rep t).complete = t.setGpr 1 (t.gpr 1 - 1) := by
  conv_rhs => rw [hkept]
  rfl

/-- Settles O44. -/
theorem repeatUnfolds : Obligations.RepeatUnfolds := by
  unfold Obligations.RepeatUnfolds
  refine fun op dword s hrep => ⟨fun hzero => ?_, fun hecx => ?_⟩
  · refine ⟨s.complete, ?_, fun _ => rfl, fun _ => rfl, rfl, intEnded_complete rfl⟩
    rw [exec_repeated op dword hrep, hzero]
    rfl
  have honce := exec_once op dword (s := withRep .none s) rfl
  rw [stringBody_withRep] at honce
  cases hfits : op.fits dword s with
  | false =>
    have hbody := stringBody_not_fits op dword hfits
    rw [hbody] at honce
    refine ⟨_, honce, fun _ => ⟨?_, rfl⟩, nofun⟩
    have hpos : (s.gpr 1).toNat = (s.gpr 1).toNat - 1 + 1 := by bv_omega
    rw [exec_repeated op dword hrep, hpos, repLoop_error (stringStop op) _ hbody]
    rfl
  | true =>
    obtain ⟨t, hok, hdid, hkept⟩ := stringBody_fits op dword hfits
    have hiter := exec_iteration hrep hecx hok (did_ecx hdid) hkept
    rw [hok] at honce
    refine ⟨_, honce, nofun, fun _ => ?_⟩
    rw [afterIteration_eq .none hkept]
    have hearly : op.endsEarly s.rep (withRep .none t).complete = op.endsEarly s.rep t := by cases op <;> rfl
    refine ⟨fun h => ?_, fun h => ?_⟩ <;> rw [hearly] at h <;> rw [hiter, h] <;> rfl

/-! ### REP STOS -/

/-- The fill of `n` elements upward from EDI, seen on the loop (R381, R383). -/
structure Filled (k n : Nat) (s t : State) : Prop where
  ecx : t.gpr 1 = s.gpr 1 - BitVec.ofNat 32 n
  edi : t.gpr 7 = BitVec.ofNat 32 ((s.gpr 7).toNat + n * k)
  regs : RegsSameBut [1, 7] s t
  bytes : ∀ j : Nat, j < n * k → t.mem.read ((s.gpr 7).toNat + j) =
    BitVec.ofNat 8 ((s.gpr 0).toNat / 256 ^ (j % k))
  rest : ∀ b : Nat, b < (s.gpr 7).toNat ∨ (s.gpr 7).toNat + n * k ≤ b →
    t.mem.read b = s.mem.read b
  flags : t.flags = s.flags
  kept : BodyKept s t

theorem filled_zero (k : Nat) (s : State) : Filled k 0 s s where
  ecx := by simp
  edi := by simp
  regs _ _ := rfl
  bytes _ h := by simp at h
  rest _ _ := rfl
  flags := rfl
  kept := rfl

/-- The low bytes of the accumulator are those of EAX. -/
theorem accumulator_byte (dword : Bool) (s : State) {j : Nat} (hj : j < elemWidth dword / 8) :
    BitVec.ofNat 8 ((regVal (elemWidth dword) s 0).toNat / 256 ^ j) =
      BitVec.ofNat 8 ((s.gpr 0).toNat / 256 ^ j) := by
  have hbits : 8 * (elemWidth dword / 8) = elemWidth dword := by cases dword <;> rfl
  have hsplit : 2 ^ elemWidth dword = 256 ^ j * 256 ^ (elemWidth dword / 8 - j) := by
    rw [← Nat.pow_add, Nat.add_sub_cancel' hj.le, ← hbits, Nat.pow_mul]
    congr 2
    omega
  have hdvd : 2 ^ 8 ∣ 256 ^ (elemWidth dword / 8 - j) := dvd_pow_self 256 (by omega)
  apply BitVec.eq_of_toNat_eq
  rw [BitVec.toNat_ofNat, BitVec.toNat_ofNat, regVal_elem, BitVec.extractLsb'_toNat, Nat.shiftRight_zero, hsplit,
    Nat.mod_mul_right_div_self, Nat.mod_mod_of_dvd _ hdvd]

/-- One more element in front: the first iteration, and the fill it leaves. -/
theorem filled_succ {dword : Bool} {n : Nat} {s t u : State}
    (hend : (s.gpr 7).toNat + (n + 1) * (elemWidth dword / 8) ≤ 2 ^ 32) (hdf : s.df = false)
    (hdid : StringOp.Did .stos dword s t) (hkept : BodyKept s t)
    (hfill : Filled (elemWidth dword / 8) n (t.setGpr 1 (t.gpr 1 - 1)) u) :
    Filled (elemWidth dword / 8) (n + 1) s u := by
  obtain ⟨hstored, hedi, hregs, hflags⟩ := hdid
  obtain ⟨uecx, uedi, uregs, ubytes, urest, uflags, ukept⟩ := hfill
  have hother : ∀ j : Reg, j ≠ 1 → (t.setGpr 1 (t.gpr 1 - 1)).gpr j = t.gpr j := fun j hj => gpr_setGpr_other t _ hj
  rw [gpr_setGpr_self, hregs 1 (by decide)] at uecx
  rw [hother 7 (by decide)] at uedi ubytes urest
  rw [hother 0 (by decide), hregs 0 (by decide)] at ubytes
  have hstep : t.gpr 7 = BitVec.ofNat 32 ((s.gpr 7).toNat + elemWidth dword / 8) := by
    rw [hedi, advanced, if_neg (by simp [hdf])]
  have hwidth : 1 ≤ elemWidth dword / 8 := by cases dword <;> decide
  have hbyte : ∀ j : Nat, j < elemWidth dword / 8 → t.mem.read ((s.gpr 7).toNat + j) =
      BitVec.ofNat 8 ((s.gpr 0).toNat / 256 ^ j) := fun j hj =>
    (hstored.1 j hj).trans (accumulator_byte dword s hj)
  have hrest := hstored.2
  generalize elemWidth dword / 8 = k at *
  rw [Nat.succ_mul] at hend
  have hplace : n = 0 ∨ (t.gpr 7).toNat = (s.gpr 7).toNat + k := by
    refine or_iff_not_imp_left.2 fun hn => ?_
    have hmul : 1 * k ≤ n * k := Nat.mul_le_mul_right k (by omega)
    rw [hstep, BitVec.toNat_ofNat, Nat.mod_eq_of_lt (by omega)]
  refine ⟨?_, ?_, fun i hi => ?_, fun j hj => ?_, fun b hb => ?_, uflags.trans hflags, ?_⟩
  · rw [uecx, BitVec.ofNat_add]
    bv_omega
  · rw [uedi, hstep, Nat.succ_mul]
    apply BitVec.eq_of_toNat_eq
    simp only [BitVec.toNat_ofNat]
    omega
  · obtain ⟨h1, h7⟩ : i ≠ 1 ∧ i ≠ 7 := by simpa using hi
    rw [uregs i hi, hother i h1, hregs i (List.mem_singleton.not.2 h7)]
  · rw [Nat.succ_mul] at hj
    by_cases hfirst : j < k
    · rw [urest _ ?_, Nat.mod_eq_of_lt hfirst]
      · exact hbyte j hfirst
      · rcases hplace with rfl | hplace <;> omega
    · have hn : n ≠ 0 := by
        rintro rfl
        omega
      have hat := ubytes (j - k) (by omega)
      rwa [hplace.resolve_left hn, Nat.add_assoc, Nat.add_sub_cancel' (Nat.not_lt.1 hfirst),
        ← Nat.mod_eq_sub_mod (Nat.not_lt.1 hfirst)] at hat
  · rw [Nat.succ_mul] at hb
    rw [urest b ?_]
    · exact hrest b (by omega)
    · rcases hplace with rfl | hplace <;> omega
  · unfold BodyKept at *
    rw [ukept, hkept]
    rfl

/-- The loop fills, when its elements lie inside memory. -/
theorem repLoop_stos (dword : Bool) (n : Nat) : ∀ s : State, s.df = false → s.config.wf →
    (s.gpr 7).toNat + n * (elemWidth dword / 8) ≤ s.config.memSize →
    ∃ t : State, repLoop (stringBody .stos dword) neverStop n s = (t, none) ∧ Filled (elemWidth dword / 8) n s t := by
  induction n with
  | zero => exact fun s _ _ _ => ⟨s, rfl, filled_zero _ s⟩
  | succ n ih =>
    intro s hdf hconfig hend
    have hspan : (n + 1) * (elemWidth dword / 8) = n * (elemWidth dword / 8) + elemWidth dword / 8 := Nat.succ_mul _ _
    have hfits : StringOp.fits .stos dword s = true := (fits_iff s _ _).2 (by omega)
    obtain ⟨t, hok, hdid, hkept⟩ := stringBody_fits .stos dword hfits
    have ⟨_, hadv, _, hflags⟩ := hdid
    have hconfig' : t.config = s.config := by rw [hkept]
    have hdf' : t.df = false := by
      rw [← hdf, State.df, hflags]
      rfl
    have hedi : t.gpr 7 = BitVec.ofNat 32 ((s.gpr 7).toNat + elemWidth dword / 8) := by
      rw [hadv, advanced, if_neg (by simp [hdf])]
    have hpos : (t.gpr 7).toNat + n * (elemWidth dword / 8) ≤ t.config.memSize := by
      have hmod := Nat.mod_le ((s.gpr 7).toNat + elemWidth dword / 8) (2 ^ 32)
      rw [hedi, BitVec.toNat_ofNat, hconfig']
      omega
    obtain ⟨u, hloop, hfill⟩ := ih (t.setGpr 1 (t.gpr 1 - 1)) hdf' (hconfig' ▸ hconfig)
      (by rwa [gpr_setGpr_other t _ (by decide)])
    refine ⟨u, ?_, filled_succ (hend.trans hconfig.2) hdf hdid hkept hfill⟩
    rw [repLoop_ok neverStop n hok, neverStop, if_neg (by simp), hloop]

/-- Settles O45. -/
theorem repStosFills : Obligations.RepStosFills := by
  unfold Obligations.RepStosFills
  intro dword s hrep hdf hconfig k n hend
  obtain ⟨t, hloop, hecx, hedi, hregs, hbytes, hrest, hflags, hkept⟩ := repLoop_stos dword n s hdf hconfig hend
  refine ⟨t.complete, ?_, ?_, hedi, hregs, hbytes, hrest, hflags, intEnded_complete hkept⟩
  · rw [exec_repeated .stos dword hrep]
    show Host.Outcome.next (finishRep (repLoop _ neverStop n s)) = _
    rw [hloop]
    rfl
  · rw [complete_gpr, hecx, BitVec.ofNat_toNat, BitVec.setWidth_eq, BitVec.sub_self]
    rfl


end Sys2Proof.Proofs
end

section
/-! PROOFS. The x87 instructions. -/

namespace Sys2Proof.Proofs

open Sys2Proof.Machine Sys2Proof.Claims Sys2Proof.Laws

theorem top0_eq (s : State) : top0 s = s.st 0 := (st_eq s 0).symm

theorem slotOf_zero (s : State) : slotOf s 0 = s.fpuTop.toNat := Nat.mod_eq_of_lt s.fpuTop.isLt

/-! ### Memory sources -/

/-- A read of the memory operand and its conversion (R402). -/
theorem source_fits {w : Nat} {s : State} (conv : BitVec w → Option F64) (h : memFits (w / 8) s = true) :
    (do let v ← s.memRead w s.memAddr; return settle s (conv v) : Except Fault (State × F64)) =
      .ok (settle s (conv (memVal w s))) := by
  rw [memRead_fits h]
  rfl

theorem srcInt_fits {w : Nat} {s : State} (h : memFits (w / 8) s = true) :
    srcInt w s = .ok (settle s (some (cvtIntToF64 (memVal w s).toInt))) :=
  source_fits (fun v => some (cvtIntToF64 v.toInt)) h

/-- The read of a memory source (R402). -/
def sourceOf : SrcForm → X87Source
  | .m32fp => srcM32fp
  | .m64fp => srcM64fp
  | .m32int => srcInt 32
  | .m16int => srcInt 16

theorem sourceOf_fits {f : SrcForm} {s : State} (h : memFits f.bytes s = true) :
    sourceOf f s = .ok (settle s (f.value s)) :=
  match f with
  | .m32fp => source_fits cvtF32ToF64 h
  | .m64fp => source_fits (w := 64) some h
  | .m32int => srcInt_fits (w := 32) h
  | .m16int => srcInt_fits (w := 16) h

/-! ### Loads -/

/-- A result pushed, a NaN being drawn (R405). -/
def pushResult (s : State) (r : Option F64) : State := (settle s r).1.fpush (settle s r).2

theorem fldMem_ok {src : X87Source} {s : State} {r : Option F64} (h : src s = .ok (settle s r)) :
    fldMem src s = .ok (pushResult s r).complete := by
  rw [fldMem, h]
  rfl

/-- Every load pushes its value (R405 to R407). -/
theorem exec_load {f : LoadForm} {s : State} (h : f.fits s = true) :
    exec f.instr s = .next (pushResult s (f.value s)).complete := by
  have hmem : f.bytes = 0 ∨ memFits f.bytes s = true := by simpa [LoadForm.fits] using h
  cases f with
  | m32fp => exact exec_next rfl (fldMem_ok (source_fits cvtF32ToF64 (hmem.resolve_left nofun)))
  | m64fp => exact exec_next rfl (fldMem_ok (source_fits (w := 64) some (hmem.resolve_left nofun)))
  | m80fp => exact exec_next rfl (fldMem_ok (source_fits (f80Load s.config.f80) (hmem.resolve_left nofun)))
  | m16int => exact exec_next rfl (fldMem_ok (srcInt_fits (w := 16) (hmem.resolve_left nofun)))
  | m32int => exact exec_next rfl (fldMem_ok (srcInt_fits (w := 32) (hmem.resolve_left nofun)))
  | m64int => exact exec_next rfl (fldMem_ok (srcInt_fits (w := 64) (hmem.resolve_left nofun)))
  | sti =>
    rw [LoadForm.value, ← st_eq]
    rfl
  | one => rfl
  | l2t => rfl
  | l2e => rfl
  | pi => rfl
  | lg2 => rfl
  | ln2 => rfl
  | zero => rfl

theorem pushed_pushResult (s : State) (r : Option F64) : Pushed s (pushResult s r) (settle s r).2 :=
  match r with
  | some v => pushed_fpush s v
  | none => pushed_fpush s _

/-- Settles O47. -/
theorem x87LoadsComplete : Obligations.X87LoadsComplete := by
  unfold Obligations.X87LoadsComplete
  intro f s h
  refine ⟨_, (settle s (f.value s)).2, exec_load h, settled_settle s _ rfl, pushed_pushResult s _, x87Ended_of ?_⟩
  cases f.value s <;> rfl

/-! ### Stores -/

/-- The `n` bytes of the store's operand become those of `v`; the store pops or leaves the x87 state alone. -/
def Stores (i : Instr) (n v : Nat) (pops : Bool) (s : State) : Prop :=
  ∃ t : State, exec i s = .next t ∧ MemStored s t s.memAddr n v ∧ RegsSame s t ∧ t.flags = s.flags ∧
    Ended s t s.next ∧ t.draws = s.draws ∧ (pops = false → X87Same s t) ∧ (pops = true → Popped s t)

/-- A store without a pop (R408, R411, R420, R421). -/
theorem stores_fst {w : Nat} {i : Instr} {s : State} {v : BitVec w} (hexec : exec i s = finish s (fstMem v s))
    (h : memFits (w / 8) s = true) : Stores i (w / 8) v.toNat false s := by
  obtain ⟨u, hu, hstored, hrest⟩ := memWrite_fits v h
  have hr : fstMem v s = .ok u.complete := by
    rw [fstMem, hu]
    rfl
  refine ⟨_, exec_next hexec hr, MemStored.congr hstored rfl, ?_⟩
  rw [hrest]
  exact ⟨fun _ => rfl, rfl, ⟨rfl, rfl, ⟨rfl, rfl, rfl, rfl, rfl⟩, rfl, rfl, rfl⟩, rfl,
    fun _ => ⟨rfl, rfl, rfl, rfl, rfl⟩, nofun⟩

/-- A store and a pop (R409, R412). -/
theorem stores_fstp {w : Nat} {i : Instr} {s : State} {v : BitVec w} (hexec : exec i s = finish s (fstpMem v s))
    (h : memFits (w / 8) s = true) : Stores i (w / 8) v.toNat true s := by
  obtain ⟨u, hu, hstored, hrest⟩ := memWrite_fits v h
  have hr : fstpMem v s = .ok u.fpop.complete := by
    rw [fstpMem, hu]
    rfl
  refine ⟨_, exec_next hexec hr, MemStored.congr hstored rfl, ?_⟩
  rw [hrest]
  exact ⟨fun _ => rfl, rfl, ⟨rfl, rfl, ⟨rfl, rfl, rfl, rfl, rfl⟩, rfl, rfl, rfl⟩, rfl, nofun, fun _ => popped_fpop s⟩

/-- Settles O48. -/
theorem x87StoresComplete : Obligations.X87StoresComplete := by
  unfold Obligations.X87StoresComplete
  intro f s h
  show Stores f.instr f.bytes (f.value s) f.pops s
  cases f <;> simp only [StoreForm.value, top0_eq]
  case fstM32 => exact stores_fst (v := cvtF64ToF32 (s.st 0)) rfl h
  case fstM64 => exact stores_fst (v := s.st 0) rfl h
  case fstpM32 => exact stores_fstp (v := cvtF64ToF32 (s.st 0)) rfl h
  case fstpM64 => exact stores_fstp (v := s.st 0) rfl h
  case fstpM80 => exact stores_fstp (v := f80Store s.config.f80 (s.st 0)) rfl h
  case fistM16 => exact stores_fst (v := intConv s.config.fistOverflow16 (s.st 0)) rfl h
  case fistM32 => exact stores_fst (v := intConv s.config.fistOverflow32 (s.st 0)) rfl h
  case fistpM16 => exact stores_fstp (v := intConv s.config.fistOverflow16 (s.st 0)) rfl h
  case fistpM32 => exact stores_fstp (v := intConv s.config.fistOverflow32 (s.st 0)) rfl h
  case fistpM64 => exact stores_fstp (v := intConv s.config.fistOverflow64 (s.st 0)) rfl h
  case fnstcw => exact stores_fst (v := s.fpuControl) rfl h
  case fnstsw => exact stores_fst (v := s.fpuStatus) rfl h

/-! ### Slots, tags and words -/

theorem slot_setSt (s : State) (i : Reg) (v : F64) (n : Nat) :
    slot (s.setSt i v) n = if n = slotOf s i.toNat then v else slot s n := by
  rw [State.setSt, slot_setSlot, phys_toNat]

theorem slot_copySt0 (i : Reg) (s : State) (n : Nat) :
    slot (copySt0 i s) n = if n = slotOf s i.toNat then top0 s else slot s n := by
  rw [top0_eq]
  exact slot_setSt s i (s.st 0) n

theorem tagBits_copySt0 (i : Reg) (s : State) {n : Nat} (hn : n < 8) :
    tagBits (copySt0 i s) n = if n = slotOf s i.toNat then 0 else tagBits s n := by
  rw [← phys_toNat]
  exact tagBits_setTag (s.setSt i (s.st 0)) (s.phys i) tagValid hn

/-- FSTP ST(i): the tag of the popped slot is written last (R409). -/
theorem tagBits_copyPop (i : Reg) (s : State) {n : Nat} (hn : n < 8) :
    tagBits (copySt0 i s).fpop n =
      if n = slotOf s 0 then 3 else if n = slotOf s i.toNat then 0 else tagBits s n := by
  rw [tagBits_fpop _ hn, tagBits_copySt0 i s hn, slotOf_zero]
  rfl

/-- FXCH: of two equal slots nothing changes (R413). -/
theorem slot_exchange (i : Reg) (s : State) (n : Nat) :
    slot (exchange i s) n =
      if n = slotOf s i.toNat then slot s (slotOf s 0) else if n = slotOf s 0 then slot s (slotOf s i.toNat)
      else slot s n := by
  show slot ((s.setSt 0 (s.st i)).setSt i (s.st 0)) n = _
  rw [slot_setSt, slot_setSt, st_eq, st_eq]
  rfl

theorem tagBits_exchange (i : Reg) (s : State) {n : Nat} (hn : n < 8) :
    tagBits (exchange i s) n =
      if n = slotOf s i.toNat then tagBits s (slotOf s 0) else if n = slotOf s 0 then tagBits s (slotOf s i.toNat)
      else tagBits s n := by
  rw [exchange, tagBits_setTag _ _ _ hn, tagBits_setTag _ _ _ hn, ← tagBits_eq, ← tagBits_eq, phys_toNat, phys_toNat]
  rfl

/-- Settles O49. -/
theorem x87StackControl : Obligations.X87StackControl := by
  unfold Obligations.X87StackControl
  intro s p q done
  have hdone : ∀ {i : Instr} {t : State}, exec i s = .next t.complete →
      t = { s with fpuStack := t.fpuStack, fpuTop := t.fpuTop, fpuStatus := t.fpuStatus,
                   fpuControl := t.fpuControl, fpuTag := t.fpuTag } → done i t.complete := fun hexec hrest =>
    ⟨hexec, x87Ended_of (by rw [hrest]), by rw [hrest]; rfl⟩
  have hp : p < 8 := slotOf_lt s 0
  have hq : q < 8 := slotOf_lt s _
  refine ⟨?_, ?_, ?_, ?_, ?_, ?_, ?_, ?_, ?_⟩
  · refine ⟨_, hdone rfl rfl, ?_, fun n hn => ?_, ?_, fun n hlt hn => ?_, rfl, rfl, rfl⟩
    · exact (slot_copySt0 s.stIndex s q).trans (if_pos rfl)
    · exact (slot_copySt0 s.stIndex s n).trans (if_neg (List.mem_singleton.not.1 hn))
    · exact (tagBits_copySt0 s.stIndex s hq).trans (if_pos rfl)
    · exact (tagBits_copySt0 s.stIndex s hlt).trans (if_neg (List.mem_singleton.not.1 hn))
  · obtain ⟨htop, -⟩ := popped_fpop (copySt0 s.stIndex s)
    refine ⟨_, hdone rfl rfl, ?_, fun n hn => ?_, ?_, fun hqp => ?_, fun n hlt hn => ?_, htop, rfl⟩
    · exact (slot_copySt0 s.stIndex s q).trans (if_pos rfl)
    · exact (slot_copySt0 s.stIndex s n).trans (if_neg (List.mem_singleton.not.1 hn))
    · exact (tagBits_copyPop s.stIndex s hp).trans (if_pos rfl)
    · exact (tagBits_copyPop s.stIndex s hq).trans ((if_neg hqp).trans (if_pos rfl))
    · obtain ⟨hnp, hnq⟩ : n ≠ p ∧ n ≠ q := by simpa using hn
      exact (tagBits_copyPop s.stIndex s hlt).trans ((if_neg hnp).trans (if_neg hnq))
  · have hpq : ∀ {α : Type} (f : Nat → α), (if p = q then f p else if p = p then f q else f p) = f q := fun f => by
      rw [if_pos rfl]
      split
      · rename_i h
        rw [h]
      · rfl
    refine ⟨_, hdone rfl rfl, ?_, ?_, fun n hn => ?_, ?_, ?_, fun n hlt hn => ?_, rfl, rfl, rfl⟩
    · exact (slot_exchange s.stIndex s p).trans (hpq (slot s))
    · exact (slot_exchange s.stIndex s q).trans (if_pos rfl)
    · obtain ⟨hnp, hnq⟩ : n ≠ p ∧ n ≠ q := by simpa using hn
      exact (slot_exchange s.stIndex s n).trans ((if_neg hnq).trans (if_neg hnp))
    · exact (tagBits_exchange s.stIndex s hp).trans (hpq (tagBits s))
    · exact (tagBits_exchange s.stIndex s hq).trans (if_pos rfl)
    · obtain ⟨hnp, hnq⟩ : n ≠ p ∧ n ≠ q := by simpa using hn
      exact (tagBits_exchange s.stIndex s hlt).trans ((if_neg hnq).trans (if_neg hnp))
  · have htag : ∀ {n : Nat}, n < 8 →
        tagBits (s.setTag (s.phys s.stIndex) tagEmpty) n = if n = q then 3 else tagBits s n := fun hn => by
        rw [tagBits_setTag _ _ _ hn, phys_toNat]
        rfl
    refine ⟨_, hdone rfl rfl, ?_, fun n hlt hn => ?_, rfl, rfl, rfl, rfl⟩
    · exact (htag hq).trans (if_pos rfl)
    · exact (htag hlt).trans (if_neg (List.mem_singleton.not.1 hn))
  · simp only [List.forall_mem_cons]
    refine ⟨⟨_, hdone rfl rfl, ?_, rfl, rfl, rfl⟩, ⟨_, hdone rfl rfl, ?_, rfl, rfl, rfl⟩, List.forall_mem_nil _⟩
    · rw [← top_add_one]
      exact TopIs.congr (topIs_setTop s _) rfl rfl
    · rw [← top_sub_one]
      exact TopIs.congr (topIs_setTop s _) rfl rfl
  · exact ⟨_, hdone rfl rfl, rfl, rfl, rfl, rfl, rfl⟩
  · have hmask : ∀ k : Nat, k < 16 → (0x7F00#16).getLsbD k = decide (8 ≤ k ∧ k < 15) := by decide
    refine ⟨_, hdone (t := { s with fpuStatus := s.fpuStatus &&& 0x7F00 }) rfl rfl, fun k hk => ?_,
      fun k h8 h15 => ?_, rfl, rfl, rfl, rfl⟩
    · show (s.fpuStatus &&& 0x7F00#16).getLsbD k = false
      rw [BitVec.getLsbD_and, hmask k (by omega), decide_eq_false (by omega), Bool.and_false]
    · show (s.fpuStatus &&& 0x7F00#16).getLsbD k = _
      rw [BitVec.getLsbD_and, hmask k (by omega), decide_eq_true ⟨h8, h15⟩, Bool.and_true]
  · intro h
    have hload : loadControl s = .ok ({ s with fpuControl := memVal 16 s } : State).complete := by
      rw [loadControl, memRead_fits (w := 16) h]
      rfl
    exact ⟨_, hdone (exec_next rfl hload) rfl, rfl, rfl, rfl, rfl, rfl⟩
  · obtain ⟨⟨hreg, hmem⟩, hflags, hend⟩ := setReg_complete faithful16 s 0 s.fpuStatus
    exact ⟨_, rfl, hreg, hmem, hflags, hend⟩

/-! ### Arithmetic -/

theorem applyFp_eq (op : FpOp) (d src : F64) : applyFp op d src = apply450 op d src := by
  cases op <;> rfl

section
variable {a b : F64}

theorem fadd_nan (h : isNan a = true ∨ isNan b = true) : fadd a b = none := by
  rcases h with h | h
  · rw [fadd, value64_nan h]
  · rw [fadd, value64_nan h]
    cases value64 a <;> rfl

theorem fsub_nan (h : isNan a = true ∨ isNan b = true) : fsub a b = none :=
  fadd_nan (h.imp_right ((isNan_negate b).trans ·))

theorem fmul_nan (h : isNan a = true ∨ isNan b = true) : fmul a b = none := by
  rcases h with h | h
  · rw [fmul, value64_nan h]
  · rw [fmul, value64_nan h]
    cases value64 a <;> rfl

theorem fdiv_nan (h : isNan a = true ∨ isNan b = true) : fdiv a b = none := by
  rcases h with h | h
  · rw [fdiv, value64_nan h]
  · rw [fdiv, value64_nan h]
    cases value64 a <;> rfl

end

/-- A NaN operand gives a NaN (R25). -/
theorem apply450_nan {op : FpOp} {d src : F64} (h : isNan src = true) : apply450 op d src = none :=
  match op with
  | .add => fadd_nan (.inr h)
  | .mul => fmul_nan (.inr h)
  | .sub => fsub_nan (.inr h)
  | .subr => fsub_nan (.inl h)
  | .div => fdiv_nan (.inr h)
  | .divr => fdiv_nan (.inl h)

/-- Every draw of `NAN_RESULT` is a NaN (R15). -/
theorem nanResult_isNan (n : Nat) : isNan (nanResult n) = true := by
  unfold nanResult
  split
  · assumption
  · decide

theorem fpMem_ok {op : FpOp} {src : X87Source} {s : State} {r : Option F64} (h : src s = .ok (settle s r)) :
    fpMem op src s = .ok (putResult (settle s r).1 0 (apply450 op (top0 s) (settle s r).2)).complete := by
  rw [fpMem, h, top0_eq, ← applyFp_eq]
  cases r <;> rfl

theorem exec_fpMem (op : FpOp) (f : SrcForm) (s : State) :
    exec (fpMemInstr op f) s = finish s (fpMem op (sourceOf f) s) := by
  cases op <;> cases f <;> rfl

/-- A result put into a slot, and the instruction completed (R450). -/
theorem putResult_completes (s : State) (i : Reg) (r : Option F64) :
    let t := (putResult s i r).complete
    slot t (slotOf s i.toNat) = (settle s r).2 ∧ Settled s t r (settle s r).2 ∧ SlotsSameBut [slotOf s i.toNat] s t ∧
      t.fpuTop = s.fpuTop ∧ t.fpuStatus = s.fpuStatus ∧ t.fpuControl = s.fpuControl ∧ t.fpuTag = s.fpuTag ∧
      X87Ended s t := by
  have hrest := putResult_rest s i r
  refine ⟨(slot_putResult s i r _).trans (if_pos rfl), settled_settle s r ?_, fun n hn => ?_, ?_, ?_, ?_, ?_,
    x87Ended_of ?_⟩
  · show (putResult s i r).draws = _
    rw [hrest]
  · exact (slot_putResult s i r n).trans (if_neg (List.mem_singleton.not.1 hn))
  · show (putResult s i r).fpuTop = _
    rw [hrest]
  · show (putResult s i r).fpuStatus = _
    rw [hrest]
  · show (putResult s i r).fpuControl = _
    rw [hrest]
  · show (putResult s i r).fpuTag = _
    rw [hrest]
  · cases r <;> rfl

/-- Settles O50. -/
theorem x87MemoryArithmetic : Obligations.X87MemoryArithmetic := by
  unfold Obligations.X87MemoryArithmetic
  intro op f s h
  have hexec := exec_next (exec_fpMem op f s) (fpMem_ok (op := op) (sourceOf_fits h))
  cases hv : f.value s with
  | some b =>
    rw [hv] at hexec
    obtain ⟨hslot, hsettled, hslots, htop, hstatus, hcontrol, htag, hend⟩ :=
      putResult_completes s 0 (apply450 op (top0 s) b)
    exact ⟨_, _, hexec, hslot, hsettled, hslots, htop, hstatus, hcontrol, htag, hend⟩
  | none =>
    rw [hv] at hexec
    obtain ⟨hslot, ⟨hnan, hdraws⟩, hslots, htop, hstatus, hcontrol, htag, hend⟩ :=
      putResult_completes (settle s none).1 0 none
    have hnone : apply450 op (top0 s) (settle s none).2 = none := apply450_nan (nanResult_isNan s.draws)
    rw [hnone] at hexec
    exact ⟨_, _, hexec, hslot, ⟨hnan, hdraws⟩, hslots, htop, hstatus, hcontrol, htag, hend⟩

/-- What the D8, DC and DE forms leave before the pop (R450). -/
theorem exec_fpReg (op : FpOp) (s : State) :
    exec (fpRegInstr op .toSt0) s =
        .next (putResult s 0 (apply450 op (top0 s) (slot s (slotOf s s.stIndex.toNat)))).complete ∧
      exec (fpRegInstr op .toSti) s =
        .next (putResult s s.stIndex (apply450 op (slot s (slotOf s s.stIndex.toNat)) (top0 s))).complete ∧
      exec (fpRegInstr op .toStiPop) s =
        .next (putResult s s.stIndex (apply450 op (slot s (slotOf s s.stIndex.toNat)) (top0 s))).fpop.complete := by
  rw [top0_eq, ← st_eq, ← applyFp_eq, ← applyFp_eq]
  cases op <;> exact ⟨rfl, rfl, rfl⟩

/-- Settles O51. -/
theorem x87RegisterArithmetic : Obligations.X87RegisterArithmetic := by
  unfold Obligations.X87RegisterArithmetic
  intro op s q st0 sti done
  obtain ⟨hst0, hsti, hstiPop⟩ := exec_fpReg op s
  refine ⟨?_, ?_, ?_⟩
  · obtain ⟨hslot, hsettled, hslots, htop, hstatus, hcontrol, htag, hend⟩ :=
      putResult_completes s 0 (apply450 op st0 sti)
    exact ⟨_, _, ⟨hst0, hslot, hsettled, hslots, hcontrol, hend⟩, htop, hstatus, htag⟩
  · obtain ⟨hslot, hsettled, hslots, htop, hstatus, hcontrol, htag, hend⟩ :=
      putResult_completes s s.stIndex (apply450 op sti st0)
    exact ⟨_, _, ⟨hsti, hslot, hsettled, hslots, hcontrol, hend⟩, htop, hstatus, htag⟩
  · obtain ⟨hslot, hsettled, hslots, htop, hstatus, hcontrol, htag, -⟩ :=
      putResult_completes s s.stIndex (apply450 op sti st0)
    obtain ⟨htopIs, hempty, hkept, htags, -⟩ := popped_fpop (putResult s s.stIndex (apply450 op sti st0))
    have hrest := putResult_rest s s.stIndex (apply450 op sti st0)
    generalize putResult s s.stIndex (apply450 op sti st0) = u at *
    replace htop : u.fpuTop = s.fpuTop := htop
    replace hstatus : u.fpuStatus = s.fpuStatus := hstatus
    unfold TopIs at htopIs
    rw [htop] at hempty htags htopIs
    rw [hstatus] at htopIs
    refine ⟨_, _, ⟨hstiPop, (hkept q List.not_mem_nil).trans hslot, hsettled,
      fun n hn => (hkept n List.not_mem_nil).trans (hslots n hn), hcontrol, x87Ended_of ?_⟩, htopIs, hempty,
      fun n hlt hn => (htags n hlt hn).trans (tagBits_congr htag n)⟩
    rw [hrest]
    rfl

/-! ### Signs, roots and moves -/

/-- FCMOVcc (R490). -/
theorem exec_fcmov (s : State) : ∀ p ∈ fcmovRows,
    exec p.1 s = .next (fcmovIf (condOf p.2) s).complete ∧ (condOf p.2).holds s = condition p.2 s := by
  simp only [fcmovRows, List.forall_mem_cons]
  exact ⟨⟨rfl, rfl⟩, ⟨rfl, rfl⟩, ⟨rfl, rfl⟩, ⟨rfl, rfl⟩, ⟨rfl, rfl⟩, ⟨rfl, rfl⟩, List.forall_mem_nil _⟩

/-- ST(0) written, its tag kept. -/
theorem setSt0_completes (s : State) (v : F64) :
    let t := (s.setSt 0 v).complete
    top0 t = v ∧ SlotsSameBut [slotOf s 0] s t ∧ X87Ended s t :=
  ⟨(slot_setSt s 0 v _).trans (if_pos rfl),
    fun n hn => (slot_setSt s 0 v n).trans (if_neg (List.mem_singleton.not.1 hn)), x87Ended_of rfl⟩

theorem signBit_low {k : Nat} (hk : k < 63) : (0x8000000000000000#64).getLsbD k = false :=
  (show ∀ k : Nat, k < 63 → (0x8000000000000000#64).getLsbD k = false by decide) k hk

theorem magnitudeMask_low {k : Nat} (hk : k < 63) : (0x7FFFFFFFFFFFFFFF#64).getLsbD k = true :=
  (show ∀ k : Nat, k < 63 → (0x7FFFFFFFFFFFFFFF#64).getLsbD k = true by decide) k hk

/-- Settles O52. -/
theorem x87UnaryAndMovesComplete : Obligations.X87UnaryAndMovesComplete := by
  unfold Obligations.X87UnaryAndMovesComplete
  intro s done bits
  have hset : ∀ {i : Instr} {v : F64}, exec i s = .next (s.setSt 0 v).complete →
      ∃ t : State, done i t ∧ t.draws = s.draws ∧ top0 t = v := fun {i v} hexec => by
    obtain ⟨htop0, hslots, hend⟩ := setSt0_completes s v
    exact ⟨_, ⟨hexec, hslots, rfl, rfl, rfl, rfl, hend⟩, rfl, htop0⟩
  refine ⟨?_, ?_, ?_, fun p hp => ?_⟩
  · obtain ⟨t, hdone, hdraws, htop0⟩ := hset (i := .fchs) rfl
    refine ⟨t, hdone, hdraws, ?_, fun k hk => ?_⟩ <;> rw [htop0, ← top0_eq]
    · rw [negate, BitVec.getLsbD_xor, BitVec.msb_eq_getLsbD_last]
      simp
    · rw [negate, BitVec.getLsbD_xor, signBit_low hk, Bool.xor_false]
  · obtain ⟨t, hdone, hdraws, htop0⟩ := hset (i := .fabs) rfl
    refine ⟨t, hdone, hdraws, ?_, fun k hk => ?_⟩ <;> rw [htop0, ← top0_eq, BitVec.getLsbD_and]
    · simp
    · rw [magnitudeMask_low hk, Bool.and_true]
  · obtain ⟨hslot, hsettled, hslots, htop, hstatus, hcontrol, htag, hend⟩ := putResult_completes s 0 (fsqrt (top0 s))
    refine ⟨_, _, ⟨?_, hslots, htop, hstatus, hcontrol, htag, hend⟩, ?_, hsettled⟩
    · rw [top0_eq]
      rfl
    · rw [top0, slotOf, htop]
      exact hslot
  · obtain ⟨hexec, hcond⟩ := exec_fcmov s p hp
    rw [fcmovIf, hcond] at hexec
    cases hc : condition p.2 s with
    | true =>
      rw [hc, st_eq] at hexec
      exact hset hexec
    | false =>
      rw [hc] at hexec
      exact ⟨_, ⟨hexec, fun _ _ => rfl, rfl, rfl, rfl, rfl, x87Ended_of rfl⟩, rfl, rfl⟩

/-! ### Compares -/

/-- `n` pops. -/
def popTimes : Nat → State → State
  | 0, s => s
  | n + 1, s => (popTimes n s).fpop

theorem popTimes_rest (n : Nat) (s : State) :
    popTimes n s = { s with
      fpuTop := (popTimes n s).fpuTop, fpuStatus := (popTimes n s).fpuStatus, fpuTag := (popTimes n s).fpuTag } := by
  induction n with
  | zero => rfl
  | succ n ih =>
    rw [popTimes, fpop_rest, ih]

/-- The stack after `n` pops (R48). -/
theorem poppedTimes (n : Nat) (s : State) : PoppedTimes n s (popTimes n s) := by
  induction n with
  | zero => exact ⟨(Nat.mod_eq_of_lt s.fpuTop.isLt).symm, nofun, fun _ _ _ => rfl, fun _ _ => rfl, rfl⟩
  | succ n ih =>
    obtain ⟨htop, hempty, htags, hslots, hcontrol⟩ := ih
    have hat : slotOf s n = (popTimes n s).fpuTop.toNat := htop.symm
    refine ⟨?_, fun j hj => ?_, fun p hp hother => ?_, hslots, hcontrol⟩
    · rw [popTimes, (topIs_fpop _).1, top_add_one, htop]
      omega
    · rw [popTimes, tagBits_fpop _ (slotOf_lt s j), ← hat]
      split
      · rfl
      · rename_i hne
        exact hempty j (Nat.lt_of_le_of_ne (Nat.le_of_lt_succ hj) fun h => hne (h ▸ rfl))
    · rw [popTimes, tagBits_fpop _ hp, ← hat, if_neg (hother n (Nat.lt_succ_self n))]
      exact htags p hp fun j hj => hother j (Nat.lt_succ_of_lt hj)

/-- The status bits outside TOP after `n` pops (R48, R50). -/
theorem popTimes_status (n : Nat) (s : State) {k : Nat} (hk : k < 11 ∨ 14 ≤ k) :
    (popTimes n s).fpuStatus.getLsbD k = s.fpuStatus.getLsbD k := by
  induction n with
  | zero => rfl
  | succ n ih => exact ((topIs_fpop (popTimes n s)).2.2 k hk).trans ih

theorem popTimes_synced (n : Nat) {s : State} (h : s.topSynced) : (popTimes n s).topSynced := by
  cases n with
  | zero => exact h
  | succ n => exact (topIs_fpop (popTimes n s)).2.1

/-- The pops after a write of the status word. -/
theorem popTimes_completes (n : Nat) (s : State) (w : Half) :
    let t := (popTimes n { s with fpuStatus := w }).complete
    PoppedTimes n s t ∧ t.draws = s.draws ∧ X87Ended s t := by
  refine ⟨poppedTimes n { s with fpuStatus := w }, ?_, x87Ended_of ?_⟩
  · show (popTimes n { s with fpuStatus := w }).draws = s.draws
    rw [popTimes_rest]
  · rw [popTimes_rest]

/-- `SetCC`, the pops of the row, and the end of the instruction (R475). -/
theorem compare_codes (n : Nat) (s : State) (a b : F64) :
    let t := (popTimes n (setCc s a b)).complete
    CodesOf s t (fcompare a b) ∧ PoppedTimes n s t ∧ (s.topSynced → t.topSynced) ∧ t.draws = s.draws ∧
      X87Ended s t := by
  obtain ⟨h14, h10, h9, h8, hbits, hrest⟩ := codes_setCc s a b
  have hstatus := fun {k : Nat} => popTimes_status n (setCc s a b) (k := k)
  have hpops := popTimes_completes n s (setCc s a b).fpuStatus
  rw [← hrest] at hpops
  obtain ⟨hpopped, hdraws, hend⟩ := hpops
  refine ⟨⟨(hstatus (by decide)).trans h14, (hstatus (by decide)).trans h10, (hstatus (by decide)).trans h9,
    (hstatus (by decide)).trans h8, fun k hk => ?_⟩, hpopped,
    fun h => popTimes_synced n ((worked_setCc s a b).top h), hdraws, hend⟩
  exact (hstatus (by omega)).trans (hbits k (by omega) (by omega) (by omega) (by omega))

theorem exec_fcomMem (f : SrcForm) (pop : Bool) {s : State} (h : memFits f.bytes s = true) :
    exec (fcomMemInstr f pop) s =
      .next (popTimes (if pop then 1 else 0)
        (setCc (settle s (f.value s)).1 (top0 s) (settle s (f.value s)).2)).complete := by
  have hsrc := sourceOf_fits h
  have hst : (settle s (f.value s)).1.st 0 = top0 s := by
    rw [settle_rest, top0_eq]
    rfl
  have hkeep : fcomMem (sourceOf f) s =
      .ok (setCc (settle s (f.value s)).1 (top0 s) (settle s (f.value s)).2).complete := by
    rw [fcomMem, hsrc, ← hst]
    rfl
  have hpop : fcompMem (sourceOf f) s =
      .ok (setCc (settle s (f.value s)).1 (top0 s) (settle s (f.value s)).2).fpop.complete := by
    rw [fcompMem, hsrc, ← hst]
    rfl
  cases pop with
  | false => exact exec_next (by cases f <;> rfl) hkeep
  | true => exact exec_next (by cases f <;> rfl) hpop

/-- The register compares (R476 to R481). -/
theorem exec_fcomReg (s : State) : ∀ p ∈ fcomRegRows,
    exec p.1 s = .next (popTimes p.2.2
      (setCc s (s.st 0) (slot s (slotOf s (if p.2.1 then 1 else s.stIndex.toNat))))).complete := by
  have h1 : slot s (slotOf s 1) = s.st 1 := (st_eq s 1).symm
  simp only [fcomRegRows, List.forall_mem_cons, if_true, h1, ← st_eq, Bool.false_eq_true, if_false]
  exact ⟨rfl, rfl, rfl, rfl, rfl, rfl, List.forall_mem_nil _⟩

/-- Settles O53. -/
theorem x87ComparesComplete : Obligations.X87ComparesComplete := by
  unfold Obligations.X87ComparesComplete
  intro s done
  refine ⟨fun f pop h => ?_, fun p hp => ?_, ?_⟩
  · obtain ⟨hcodes, hpopped, htop, hdraws, hend⟩ := compare_codes (if pop then 1 else 0) (settle s (f.value s)).1
      (top0 s) (settle s (f.value s)).2
    have hexec := exec_fcomMem f pop h
    refine ⟨_, _, settled_settle s _ hdraws, hexec, ?_⟩
    rw [settle_rest] at hcodes hpopped htop hend ⊢
    exact ⟨hcodes, hpopped, htop, hend⟩
  · have hexec := exec_fcomReg s p hp
    rw [← top0_eq] at hexec
    obtain ⟨hcodes, hpopped, htop, hdraws, hend⟩ := compare_codes p.2.2 s (top0 s)
      (slot s (slotOf s (if p.2.1 then 1 else s.stIndex.toNat)))
    exact ⟨_, ⟨hexec, hcodes, hpopped, htop, hend⟩, hdraws⟩
  · obtain ⟨hcodes, hpopped, htop, hdraws, hend⟩ := compare_codes 0 s (top0 s) 0
    refine ⟨_, ⟨?_, hcodes, hpopped, htop, hend⟩, hdraws⟩
    rw [top0_eq]
    rfl

/-- The flag compares (R486 to R489). -/
theorem exec_fcomiReg (s : State) : ∀ p ∈ fcomiRows,
    exec p.1 s = .next (popTimes (if p.2 then 1 else 0)
      (setEfl s (top0 s) (slot s (slotOf s s.stIndex.toNat)))).complete := by
  simp only [fcomiRows, List.forall_mem_cons, top0_eq, ← st_eq]
  exact ⟨rfl, rfl, rfl, rfl, List.forall_mem_nil _⟩

/-- The pops after a write of the flags word. -/
theorem popTimes_flags (n : Nat) (s : State) (flags : BitVec 32) :
    let t := (popTimes n { s with flags := flags }).complete
    PoppedTimes n s t ∧ (∀ k : Nat, k < 11 ∨ 14 ≤ k → t.fpuStatus.getLsbD k = s.fpuStatus.getLsbD k) ∧ RegsSame s t ∧
      MemSame s t ∧ t.flags = flags ∧ Ended s t s.next ∧ t.draws = s.draws := by
  refine ⟨poppedTimes n { s with flags := flags }, fun k hk => popTimes_status n { s with flags := flags } hk, ?_⟩
  rw [popTimes_rest]
  exact ⟨fun _ => rfl, fun _ => rfl, rfl, ⟨rfl, rfl, ⟨rfl, rfl, rfl, rfl, rfl⟩, rfl, rfl, rfl⟩, rfl⟩

/-- Settles O54. -/
theorem x87FlagCompares : Obligations.X87FlagCompares := by
  unfold Obligations.X87FlagCompares
  intro p hp s o
  obtain ⟨hzf, hcf, hof, hflags, hrest⟩ := flags_setEfl s (top0 s) (slot s (slotOf s s.stIndex.toNat))
  have hexec := exec_fcomiReg s p hp
  generalize (if p.2 then 1 else 0) = n at *
  generalize setEfl s (top0 s) (slot s (slotOf s s.stIndex.toNat)) = u at *
  obtain ⟨hpopped, hstatus, hregs, hmem, hf, hend, hdraws⟩ := popTimes_flags n s u.flags
  rw [← hrest] at hpopped hstatus hregs hmem hf hend hdraws
  have hflag := fun k : Nat => congrArg (BitVec.getLsbD · k) hf
  exact ⟨_, hexec, (hflag 6).trans hzf, (hflag 0).trans hcf, (hflag 11).trans hof,
    fun k hk => (hflag k).trans (hflags k hk), hpopped, hstatus, hregs, hmem, hend, hdraws⟩

end Sys2Proof.Proofs
end

section
/-! PROOFS. Floating point. -/

namespace Sys2Proof.Proofs

open Sys2Proof.Machine Sys2Proof.Claims Sys2Proof.Laws

/-! ### Rounding -/

theorem numeric_of_finite {v : F64} (h : isFinite v = true) :
    ∃ (m : Nat) (q : Int), value64 v = .fin v.msb m q ∧ m < 2 ^ 53 ∧
      (numeric v : ℝ) = signOf v.msb * ((m : ℝ) * (2 : ℝ) ^ q) := by
  obtain ⟨m, q, hv, hm, -⟩ := value64_finite h
  exact ⟨m, q, hv, hm, numeric_of_value hv⟩

theorem signOf_div (a b : Bool) : signOf a / signOf b = signOf a * signOf b := by
  rw [div_eq_iff (signOf_ne b), mul_assoc, signOf_mul_self, mul_one]

/-- A quotient of naturals and its sticky rest. -/
theorem quotient_cond (n : Nat) {d : Nat} (hd : 0 < d) :
    if (n % d != 0) = true then ((n / d : Nat) : ℝ) < n / d ∧ (n : ℝ) / d < (n / d : Nat) + 1
    else (n : ℝ) / d = (n / d : Nat) := by
  have hpos : (0 : ℝ) < d := by exact_mod_cast hd
  have hdivmod : (n : ℝ) = d * (n / d : Nat) + (n % d : Nat) := by exact_mod_cast (Nat.div_add_mod n d).symm
  split
  · rename_i hne
    have hlow : (0 : ℝ) < (n % d : Nat) := by
      have : 0 < n % d := Nat.pos_of_ne_zero (by simpa using hne)
      exact_mod_cast this
    have hhigh : ((n % d : Nat) : ℝ) < d := by exact_mod_cast Nat.mod_lt n hd
    rw [lt_div_iff₀ hpos, div_lt_iff₀ hpos]
    constructor <;> linarith
  · rename_i heq
    have hzero : n % d = 0 := by simpa using heq
    rw [hzero, Nat.cast_zero, add_zero] at hdivmod
    rw [div_eq_iff hpos.ne', mul_comm]
    exact hdivmod

/-- The quotient of two finite values is rounded once (R25). -/
theorem div_rounded (neg : Bool) {m1 m2 : Nat} (q1 q2 : Int) (hm2 : m2 < 2 ^ 53) (h0 : 0 < m2) :
    RoundedTo (signOf neg * ((m1 : ℝ) * 2 ^ q1 / ((m2 : ℝ) * 2 ^ q2))) (divFinite neg m1 q1 m2 q2) := by
  have hbits : (m1 * 2 ^ 109 % m2 != 0) = true → 2 ^ 53 ≤ m1 * 2 ^ 109 / m2 := fun hne => by
    have hm1 : 1 ≤ m1 := Nat.one_le_iff_ne_zero.2 fun h => by simp [h] at hne
    rw [Nat.le_div_iff_mul_le h0]
    calc 2 ^ 53 * m2 ≤ 2 ^ 53 * 2 ^ 53 := Nat.mul_le_mul_left _ hm2.le
      _ ≤ 1 * 2 ^ 109 := by norm_num
      _ ≤ m1 * 2 ^ 109 := Nat.mul_le_mul_right _ hm1
  have hround := round64_rounded neg (q := q1 - q2 - 109) (quotient_cond (m1 * 2 ^ 109) h0) hbits
  have hvalue : ((m1 * 2 ^ 109 : Nat) : ℝ) / m2 * 2 ^ (q1 - q2 - 109) = (m1 : ℝ) * 2 ^ q1 / (m2 * 2 ^ q2) := by
    have h2 := two_zpow_pos q2
    rw [zpow_sub₀ (by norm_num), zpow_sub₀ (by norm_num)]
    push_cast
    field_simp
    norm_num
  rw [hvalue] at hround
  rw [divFinite, Nat.shiftLeft_eq]
  exact hround

/-- The root of an integer with at least 113 bits, scaled by an even power of two. -/
theorem root_rounded {m : Nat} (e : Int) (hlow : 2 ^ 112 ≤ m) (hhigh : m < 2 ^ 168) :
    RoundedTo (Real.sqrt ((m : ℝ) * 2 ^ (2 * e)))
      (round64 false (isqrtFrom m 84 0) e (isqrtFrom m 84 0 * isqrtFrom m 84 0 != m)) := by
  obtain ⟨hle, hlt⟩ := isqrtFrom_root m 84 0 (Nat.zero_le _) (hhigh.trans_eq (by norm_num))
  obtain ⟨hcond, hbits⟩ := sqrt_cond hle hlt hlow
  have hround := round64_rounded false (q := e) hcond fun _ => hbits
  have hvalue : Real.sqrt ((m : ℝ) * 2 ^ (2 * e)) = signOf false * (Real.sqrt m * 2 ^ e) := by
    have hsq : (2 : ℝ) ^ (2 * e) = 2 ^ e * 2 ^ e := by rw [two_mul, zpow_add₀ (by norm_num)]
    rw [hsq, Real.sqrt_mul (Nat.cast_nonneg m), Real.sqrt_mul_self (two_zpow_pos e).le]
    simp [signOf]
  rwa [hvalue]

/-- The root of a positive finite value is rounded once (R25, R471). -/
theorem sqrt_rounded {m : Nat} (q : Int) (hm : m < 2 ^ 53) (h0 : 0 < m) :
    RoundedTo (Real.sqrt ((m : ℝ) * 2 ^ q)) (sqrtFinite m q) := by
  by_cases hodd : q % 2 = 1
  · have hround := root_rounded (m := 2 * m * 2 ^ 112) ((q - 1 - 112) / 2) (by omega) (by omega)
    have hvalue : ((2 * m * 2 ^ 112 : Nat) : ℝ) * 2 ^ (2 * ((q - 1 - 112) / 2)) = m * 2 ^ q := by
      have hq : q = 2 * ((q - 1 - 112) / 2) + (113 : Nat) := by omega
      conv_rhs => rw [hq, zpow_add₀ (by norm_num), zpow_natCast]
      push_cast
      ring
    rw [hvalue] at hround
    simp only [sqrtFinite, hodd, if_true, Nat.shiftLeft_eq]
    exact hround
  · have hround := root_rounded (m := m * 2 ^ 112) ((q - 112) / 2) (by omega) (by omega)
    have hvalue : ((m * 2 ^ 112 : Nat) : ℝ) * 2 ^ (2 * ((q - 112) / 2)) = m * 2 ^ q := by
      have hq : q = 2 * ((q - 112) / 2) + (112 : Nat) := by omega
      conv_rhs => rw [hq, zpow_add₀ (by norm_num), zpow_natCast]
      push_cast
      ring
    rw [hvalue] at hround
    simp only [sqrtFinite, hodd, if_false, Nat.shiftLeft_eq]
    exact hround

/-- Settles O55. -/
theorem arithmeticIsRounded : Obligations.ArithmeticIsRounded := by
  unfold Obligations.ArithmeticIsRounded
  intro rounds a b ha hb
  have hadd : ∀ {a b : F64}, isFinite a = true → isFinite b = true → rounds (fadd a b) ((numeric a : ℝ) + numeric b) :=
    fun {a b} ha hb => by
      obtain ⟨m1, q1, hva, -, hna⟩ := numeric_of_finite ha
      obtain ⟨m2, q2, hvb, -, hnb⟩ := numeric_of_finite hb
      refine ⟨addFinite a.msb m1 q1 b.msb m2 q2, ?_, ?_⟩
      · rw [fadd, hva, hvb]
      · rw [hna, hnb]
        exact add_rounded ..
  obtain ⟨m1, q1, hva, hm1, hna⟩ := numeric_of_finite ha
  obtain ⟨m2, q2, hvb, hm2, hnb⟩ := numeric_of_finite hb
  refine ⟨hadd ha hb, ?_, ?_, fun hne => ?_, fun hpos => ?_⟩
  · have h := hadd ha ((isFinite_negate b).trans hb)
    rwa [numeric_negate hb, ← sub_eq_add_neg] at h
  · refine ⟨round64 (a.msb ^^ b.msb) (m1 * m2) (q1 + q2) false, ?_, ?_⟩
    · rw [fmul, hva, hvb]
    · have h := round64_rounded (a.msb ^^ b.msb) (m := m1 * m2) (q := q1 + q2) (sticky := false) (x := m1 * m2)
        (by simp) nofun
      convert h using 1
      rw [hna, hnb, signOf_xor, zpow_add₀ (by norm_num)]
      ring
  · have h0 : 0 < m2 := Nat.pos_of_ne_zero fun h => hne (by
      rw [h] at hnb
      simpa using hnb)
    refine ⟨divFinite (a.msb ^^ b.msb) m1 q1 m2 q2, ?_, ?_⟩
    · simp only [fdiv, hva, hvb, if_neg h0.ne']
    · convert div_rounded (a.msb ^^ b.msb) (m1 := m1) q1 q2 hm2 h0 using 1
      rw [hna, hnb, mul_div_mul_comm, signOf_div, signOf_xor]
  · have hsign : a.msb = false := by
      cases hmsb : a.msb with
      | false => rfl
      | true =>
        have hle : (numeric a : ℝ) ≤ 0 := by
          have hq := two_zpow_pos q1
          rw [hna, hmsb, signOf, if_pos rfl, neg_one_mul, neg_nonpos]
          positivity
        exact absurd hpos (not_lt.2 (by exact_mod_cast hle))
    have h0 : 0 < m1 := Nat.pos_of_ne_zero fun h => hpos.ne' (by
      rw [h] at hna
      simpa using hna)
    refine ⟨sqrtFinite m1 q1, ?_, ?_⟩
    · simp [fsqrt, hva, hsign, h0.ne']
    · have h := sqrt_rounded q1 hm1 h0
      rw [hna, hsign]
      simpa [signOf] using h

/-! ### Comparison -/

/-- Settles O56. -/
theorem comparisonIsNumeric : Obligations.ComparisonIsNumeric := by
  unfold Obligations.ComparisonIsNumeric
  intro a b
  refine ⟨?_, fun ha hb => ?_⟩
  · rw [fcompare, ← Bool.or_eq_true]
    cases isNan a || isNan b with
    | true => simp
    | false =>
      simp only [Bool.false_eq_true, if_false, iff_false]
      split
      · nofun
      · split <;> nofun
  · have hlt : ∀ {a b : F64}, isFinite a = true → isFinite b = true →
        (numeric a < numeric b ↔ orderKey a < orderKey b) := fun ha hb => by
      rw [← keyVal_strictMono.lt_iff_lt, ← numeric_key ha, ← numeric_key hb, Rat.cast_lt]
    have heq : numeric a = numeric b ↔ orderKey a = orderKey b := by
      rw [← keyVal_strictMono.injective.eq_iff, ← numeric_key ha, ← numeric_key hb, Rat.cast_inj]
    rw [hlt ha hb, hlt hb ha, heq, fcompare, isNan_finite ha, isNan_finite hb]
    rcases lt_trichotomy (orderKey a) (orderKey b) with h | h | h
    · simp [h, h.ne, h.not_gt]
    · simp [h]
    · simp [h, h.ne', h.not_gt]

/-! ### Conversions -/

/-- What the fields of a finite pattern say (R25, R402). -/
theorem fieldsValue_finite {fw emax : Nat} {qmin : Int} {neg n : Bool} {e f m : Nat} {q : Int}
    (h : fieldsValue fw emax qmin neg e f = .fin n m q) :
    e ≠ emax ∧ n = neg ∧ q = qmin + (e - 1 : Nat) ∧ m = if e = 0 then f else 2 ^ fw + f := by
  unfold fieldsValue at h
  split at h
  · split at h <;> cases h
  · rename_i hne
    split at h
    · rename_i h0
      cases h
      exact ⟨hne, rfl, by simp [h0], by rw [if_pos h0]⟩
    · rename_i h0
      cases h
      exact ⟨hne, rfl, rfl, by rw [if_neg h0]⟩

/-- Rounding a value that a magnitude stands for is exact. -/
theorem round64_exact (neg : Bool) {m p : Nat} {q : Int} (hp : p < inf64) (h : (m : ℝ) * 2 ^ q = magVal p) :
    round64 neg m q false = join64 neg p := by
  rw [round64, pack64_exact hp h]

/-- A finite pattern is what its value rounds to. -/
theorem round64_value {v : F64} (h : isFinite v = true) {m : Nat} {q : Int}
    (hm : (m : ℝ) * 2 ^ q = magVal (v.extractLsb' 0 63).toNat) : round64 v.msb m q false = v := by
  rw [round64_exact v.msb ((isFinite_iff v).1 h) hm, join64_parts]

/-- A value that is neither infinite nor a NaN belongs to a finite pattern. -/
theorem isFinite_of_value {v : F64} {neg : Bool} {m : Nat} {q : Int} (h : value64 v = .fin neg m q) :
    isFinite v = true := by
  cases hf : isFinite v with
  | true => rfl
  | false => rcases value64_not_finite hf with h' | h' <;> rw [h'] at h <;> cases h

/-- The exponents of binary64 (R25). -/
theorem value64_exponent {v : F64} {neg : Bool} {m : Nat} {q : Int} (h : value64 v = .fin neg m q) :
    -1074 ≤ q ∧ q ≤ 971 := by
  obtain ⟨he, -, hq, -⟩ := fieldsValue_finite h
  have hlt := (v.extractLsb' 52 11).isLt
  omega

/-- A number below the overflow threshold has a finite magnitude. -/
theorem lt_inf64_of_value {m p : Nat} {q : Int} (h : magVal p = m * 2 ^ q) (hm : m ≤ 2 ^ 53) (hq : q ≤ 970) :
    p < inf64 := by
  rw [← magVal_strictMono.lt_iff_lt, h, magVal_inf]
  calc (m : ℝ) * 2 ^ q ≤ 2 ^ 53 * 2 ^ (970 : Int) := by
        refine mul_le_mul ?_ (zpow_le_zpow_right₀ (by norm_num) hq) (two_zpow_pos q).le (by positivity)
        exact_mod_cast hm
    _ < 2 ^ (1024 : Int) := by
      rw [← zpow_natCast, ← zpow_add₀ (by norm_num)]
      exact zpow_lt_zpow_right₀ (by norm_num) (by norm_num)

theorem exponent32_eq (p : BitVec 32) : (p.extractLsb' 23 8).toNat = (p.extractLsb' 0 31).toNat / 2 ^ 23 := by
  rw [BitVec.extractLsb'_toNat, BitVec.extractLsb'_toNat, Nat.shiftRight_eq_div_pow, Nat.shiftRight_zero]
  omega

theorem fraction32_eq (p : BitVec 32) : (p.extractLsb' 0 23).toNat = (p.extractLsb' 0 31).toNat % 2 ^ 23 := by
  rw [BitVec.extractLsb'_toNat, BitVec.extractLsb'_toNat, Nat.shiftRight_zero]
  omega

/-- An infinite binary32 is its sign and the magnitude of infinity (R402). -/
theorem eq_inf32_of_value {p : BitVec 32} {neg : Bool} (h : value32 p = .inf neg) : join32 neg inf32 = p := by
  unfold value32 fieldsValue at h
  split at h
  · rename_i he
    split at h
    · rename_i hf
      cases h
      rw [exponent32_eq] at he
      rw [fraction32_eq] at hf
      have hmag : (p.extractLsb' 0 31).toNat = inf32 := by
        rw [inf32]
        omega
      rw [← hmag, parts32]
    · cases h
  · split at h <;> cases h

/-- Every finite binary32 is a binary64, and narrowing finds it again (R402, R403). -/
theorem narrow_widen_finite {p : BitVec 32} {neg : Bool} {m : Nat} {q : Int} (h : value32 p = .fin neg m q) :
    cvtF64ToF32 (round64 neg m q false) = p := by
  obtain ⟨he, hneg, hq, hm⟩ := fieldsValue_finite h
  have hlt := (p.extractLsb' 0 31).isLt
  rw [exponent32_eq] at he hq hm
  rw [fraction32_eq] at hm
  have hparts := parts32 p
  generalize (p.extractLsb' 0 31).toNat = mag at *
  have hmag : mag = (mag / 2 ^ 23 - 1) * 2 ^ 23 + m := by
    split at hm <;> omega
  have hm24 : m < 2 ^ 24 := by
    split at hm <;> omega
  have hnormal : mag / 2 ^ 23 - 1 = 0 ∨ 2 ^ 23 ≤ m := by
    split at hm <;> omega
  obtain ⟨p64, hp64⟩ := scaled_magVal (n := m) (i := q) (by omega) (by omega)
  have hfin := lt_inf64_of_value hp64 (by omega) (by omega)
  rw [round64_exact neg hfin hp64.symm]
  obtain ⟨m', q', hv, -, hvalue⟩ := value64_finite (isFinite_join64 neg hfin)
  rw [msb_join64] at hv
  rw [magnitude_join64 neg (hfin.trans (by decide)), hp64, hq] at hvalue
  have hpack := pack_exact (prec := 24) (inf := inf32) (by decide) hvalue hm24 hnormal (by rw [inf32]; omega)
  rw [cvtF64ToF32, hv]
  simp only
  rw [hpack, ← hmag, hneg, hparts]

/-- Widening and narrowing a binary32 (R402, R403). -/
theorem narrow_widen {p : BitVec 32} {v : F64} (h : cvtF32ToF64 p = some v) : cvtF64ToF32 v = p := by
  rw [cvtF32ToF64] at h
  cases hp : value32 p with
  | nan =>
    rw [hp] at h
    cases h
  | inf neg =>
    rw [hp] at h
    cases h
    rw [cvtF64ToF32, value64_inf]
    exact eq_inf32_of_value hp
  | fin neg m q =>
    rw [hp] at h
    cases h
    exact narrow_widen_finite hp

/-- Storing a finite value as an 80-bit real and loading it (R404). -/
theorem load_store_finite {v : F64} (h : isFinite v = true) :
    f80Load .roundedExact (f80Store .roundedExact v) = some v := by
  obtain ⟨m, q, hv, hm, hmag⟩ := value64_finite h
  obtain ⟨hlow, hhigh⟩ := value64_exponent hv
  by_cases h0 : m = 0
  · have hstore : f80Store .roundedExact v = join80 v.msb 0 0 := by simp only [f80Store, hv, h0, if_true]
    rw [hstore, f80Load, value80_join v.msb (by decide) (by decide), ofValue, round64_value h]
    rw [← hmag, h0]
    simp
  · have hlen : Nat.log2 m < 53 := (Nat.log2_lt h0).2 hm
    have hshift : m <<< (64 - (Nat.log2 m + 1)) = m * 2 ^ (63 - Nat.log2 m) := by
      rw [Nat.shiftLeft_eq]
      congr 2
      omega
    have hsig : m <<< (64 - (Nat.log2 m + 1)) < 2 ^ 64 := by
      rw [hshift]
      calc m * 2 ^ (63 - Nat.log2 m) < 2 ^ (Nat.log2 m + 1) * 2 ^ (63 - Nat.log2 m) :=
            Nat.mul_lt_mul_of_pos_right Nat.lt_log2_self (by positivity)
        _ = 2 ^ 64 := by
          rw [← Nat.pow_add]
          congr 1
          omega
    have hstore : f80Store .roundedExact v =
        join80 v.msb (q + (Nat.log2 m + 1 : Nat) + 16382).toNat (m <<< (64 - (Nat.log2 m + 1))) := by
      simp only [f80Store, hv, h0, if_false]
    rw [hstore, f80Load, value80_join v.msb (by omega) hsig, ofValue, round64_value h]
    have hexp : q = (63 - Nat.log2 m : Nat) + (((q + (Nat.log2 m + 1 : Nat) + 16382).toNat : Int) - 16383 - 63) := by
      omega
    rw [← hmag, if_neg (by omega), hshift]
    conv_rhs => rw [hexp, zpow_add₀ (by norm_num), zpow_natCast]
    push_cast
    ring

/-- Settles O57. -/
theorem conversionsAreExact : Obligations.ConversionsAreExact := by
  unfold Obligations.ConversionsAreExact
  refine ⟨fun p v => narrow_widen, fun v hnan => ?_, int_rounded, fun i hi => ?_⟩
  · cases hf : isFinite v with
    | true => exact load_store_finite hf
    | false =>
      have hle : ¬inf64 < (v.extractLsb' 0 63).toNat := (isNan_iff v).not.1 (by simp [hnan])
      have hge : ¬(v.extractLsb' 0 63).toNat < inf64 := (isFinite_iff v).not.1 (by simp [hf])
      rw [← join64_parts v, Nat.le_antisymm (Nat.not_lt.1 hle) (Nat.not_lt.1 hge)]
      cases v.msb <;> decide
  · obtain ⟨p, hp⟩ : ∃ p, magVal p = (i.natAbs : ℝ) * 2 ^ (0 : Int) := by
      rcases Nat.lt_or_eq_of_le hi with hlt | heq
      · exact scaled_magVal hlt (by decide)
      · obtain ⟨p, hp⟩ := scaled_magVal (n := 2 ^ 52) (i := 1) (by decide) (by decide)
        refine ⟨p, hp.trans ?_⟩
        rw [heq]
        norm_num
    have hfin : p < inf64 := lt_inf64_of_value hp hi (by decide)
    have hconv : cvtIntToF64 i = join64 (decide (i < 0)) p := round64_exact _ hfin hp.symm
    have hreal : (numeric (cvtIntToF64 i) : ℝ) = i := by
      rw [hconv, numeric_join64 _ hfin, hp, zpow_zero, mul_one, Nat.cast_natAbs, Int.cast_abs]
      by_cases h : i < 0
      · have h' : (i : ℝ) < 0 := by exact_mod_cast h
        simp [h, signOf, abs_of_neg h']
      · have h' : 0 ≤ (i : ℝ) := by exact_mod_cast not_lt.1 h
        simp [h, signOf, abs_of_nonneg h']
    exact_mod_cast hreal

/-! ### Special cases -/

theorem value64_zero (neg : Bool) : value64 (join64 neg 0) = .fin neg 0 (-1074) := by
  cases neg <;> decide

/-- The opposite of a value (R25). -/
theorem value64_negate {v : F64} {m : Nat} {q : Int} (h : value64 v = .fin v.msb m q) :
    value64 (negate v) = .fin (!v.msb) m q := by
  obtain ⟨he, -, hq, hm⟩ := fieldsValue_finite h
  rw [value64, exponent_eq, fraction_eq, magnitude_negate, msb_negate, ← exponent_eq, ← fraction_eq, fieldsValue,
    if_neg he, hq, hm]
  split
  · rename_i h0
    simp [h0]
  · rfl

/-- Only the zeros have the significand 0 (R25). -/
theorem eq_zero_of_value {v : F64} {m : Nat} {q : Int} (h : value64 v = .fin v.msb m q) (h0 : m = 0) :
    v = join64 v.msb 0 := by
  obtain ⟨-, -, -, hm⟩ := fieldsValue_finite h
  rw [h0, exponent_eq, fraction_eq] at hm
  have hmag : (v.extractLsb' 0 63).toNat = 0 := by
    split at hm <;> omega
  rw [← hmag, join64_parts]

/-- The infinity of a sign, as the pattern the statement writes out. -/
theorem join64_inf (neg : Bool) :
    join64 neg inf64 = if neg then 0xFFF0000000000000#64 else 0x7FF0000000000000#64 := by
  cases neg <;> decide

theorem join64_zero (neg : Bool) :
    join64 neg 0 = if neg then 0x8000000000000000#64 else 0x0000000000000000#64 := by
  cases neg <;> decide

/-- A finite value against an infinity and a zero (R25). -/
theorem finite_special {a : F64} (s : Bool) (ha : isFinite a = true) :
    fadd a (join64 s inf64) = some (join64 s inf64) ∧ fdiv a (join64 s inf64) = some (join64 (a.msb ^^ s) 0) ∧
      fsub a a = some (join64 false 0) ∧ fmul a (join64 s 0) = some (join64 (a.msb ^^ s) 0) ∧
      (a ≠ join64 true 0 → a ≠ join64 false 0 →
        fdiv a (join64 s 0) = some (join64 (a.msb ^^ s) inf64) ∧ (a.msb = true → fsqrt a = none)) := by
  obtain ⟨m, q, hv, -, -⟩ := value64_finite ha
  refine ⟨?_, ?_, ?_, ?_, fun htrue hfalse => ?_⟩
  · rw [fadd, hv, value64_inf]
  · rw [fdiv, hv, value64_inf]
  · rw [fsub, fadd, hv, value64_negate hv]
    have hsum : addFinite a.msb m q (!a.msb) m q = join64 false 0 := by
      rw [addFinite]
      cases a.msb <;> simp
    exact congrArg some hsum
  · rw [fmul, hv, value64_zero]
    rfl
  · have h0 : m ≠ 0 := fun h => by
      have hzero := eq_zero_of_value hv h
      cases hmsb : a.msb with
      | true => exact htrue (hmsb ▸ hzero)
      | false => exact hfalse (hmsb ▸ hzero)
    refine ⟨?_, fun hneg => ?_⟩
    · simp [fdiv, hv, value64_zero, h0]
    · simp [fsqrt, hv, h0, hneg]

/-- Settles O59. -/
theorem floatSpecialCases : Obligations.FloatSpecialCases := by
  unfold Obligations.FloatSpecialCases
  simp only [← join64_inf, ← join64_zero]
  refine ⟨nanResult_isNan, fun a b h => ⟨fadd_nan h, fsub_nan h, fmul_nan h, fdiv_nan h⟩, fun a h => ?_, ?_, ?_,
    fun _ s ha => finite_special s ha, ?_, ?_, ?_, ?_, ?_⟩
  · rw [fsqrt, value64_nan h]
  · decide
  · decide
  · decide
  · decide
  · decide
  · decide
  · decide

end Sys2Proof.Proofs
end

section
/-! PROOFS. Operands outside memory. -/

namespace Sys2Proof.Proofs

open Sys2Proof.Machine Sys2Proof.Claims Sys2Proof.Laws

/-- A row whose first access faults delivers that fault (R511). -/
theorem exec_first_faults {α : Type} {i : Instr} {s : State} {first : Except Fault α} {k : α → Except Fault State}
    {f : Fault} (hexec : exec i s = finish s (first >>= k)) (h : first = .error f) :
    exec i s = .next (s.deliver f) := by
  refine exec_deliver hexec ?_
  rw [h]
  rfl

/-- The fault of an access to `n` bytes at `a` (R503). -/
def accessFault (s : State) (a : Word) (n : Nat) : Fault := .memoryFault a n s.config.memSize s.eip

/-- A MOV row at the width that its form and the operand-size prefix give (R105, R200). -/
theorem mov_faults {i : Instr} {s : State} {wide : Bool} {a : Word} (op : ∀ {w : Nat}, Access w → Except Fault State)
    (hexec : exec i s = finish s (if wide then byOpsize s (op acc16) (op acc32) else op acc8))
    (hop : ∀ {w : Nat} (acc : Access w), fits s (a) (w / 8) = false →
      op acc = .error (accessFault s a (w / 8)))
    (h : fits s (a) (movWidth wide s / 8) = false) :
    exec i s = .next (s.deliver (accessFault s a (movWidth wide s / 8))) := by
  refine exec_deliver hexec ?_
  unfold movWidth byOpsize at *
  cases wide with
  | false => exact hop acc8 h
  | true =>
    cases hosz : s.opsizeOverride with
    | false =>
      rw [hosz] at h
      exact hop acc32 h
    | true =>
      rw [hosz] at h
      exact hop acc16 h

/-! ### The r/m operand -/

section
variable {s : State} {m : MemOp} (hrm : s.ops.rm = .mem m)
include hrm

theorem aluForm_not_fits {op : AluOp} {f : AluForm} (halib : f ≠ .alib) (heaxid : f ≠ .eaxid)
    (h : fits s (linearAddr s m) (f.width / 8) = false) :
    aluForm op s f = .error (accessFault s (linearAddr s m) (f.width / 8)) := by
  cases f with
  | rm8r8 => exact aluRm_not_fits acc8 op _ hrm h
  | rm32r32 => exact aluRm_not_fits acc32 op _ hrm h
  | r8rm8 => exact aluRegRm_not_fits acc8 op hrm h
  | r32rm32 => exact aluRegRm_not_fits acc32 op hrm h
  | alib => exact absurd rfl halib
  | eaxid => exact absurd rfl heaxid
  | rm8ib => exact aluRm_not_fits acc8 op _ hrm h
  | rm32id => exact aluRm_not_fits acc32 op _ hrm h
  | rm32ib => exact aluRm_not_fits acc32 op _ hrm h

theorem testRm_not_fits {w : Nat} (acc : Access w) (src : BitVec w) (h : fits s (linearAddr s m) (w / 8) = false) :
    testRm acc src s = .error (accessFault s (linearAddr s m) (w / 8)) := by
  rw [testRm, readRm_not_fits acc hrm h]
  rfl

theorem testForm_not_fits {p : Instr × AluForm} (hp : p ∈ testForms) (halib : p.2 ≠ .alib) (heaxid : p.2 ≠ .eaxid)
    (h : fits s (linearAddr s m) (p.2.width / 8) = false) :
    testForm s p.2 = .error (accessFault s (linearAddr s m) (p.2.width / 8)) := by
  revert p
  simp only [testForms, List.forall_mem_cons]
  exact ⟨fun _ _ h => testRm_not_fits hrm acc8 _ h, fun _ _ h => testRm_not_fits hrm acc32 _ h,
    fun halib => absurd rfl halib, fun _ heaxid => absurd rfl heaxid, fun _ _ h => testRm_not_fits hrm acc8 _ h,
    fun _ _ h => testRm_not_fits hrm acc32 _ h, List.forall_mem_nil _⟩

theorem unaryForm_not_fits {f : ∀ {w : Nat}, BitVec w → AluResult w}
    {setFlags : ∀ {w : Nat}, State → AluResult w → State} {form : UnForm} (hreg : form ≠ .r32)
    (h : fits s (linearAddr s m) (form.width / 8) = false) :
    unaryForm f setFlags s form = .error (accessFault s (linearAddr s m) (form.width / 8)) := by
  cases form with
  | r32 => exact absurd rfl hreg
  | rm8 =>
    rw [unaryForm, unaryRm, readRm_not_fits acc8 hrm h]
    rfl
  | rm32 =>
    rw [unaryForm, unaryRm, readRm_not_fits acc32 hrm h]
    rfl

theorem memOperand_read {w : Nat} (h : fits s (linearAddr s m) (w / 8) = false) :
    s.memRead w s.memAddr = .error (accessFault s (linearAddr s m) (w / 8)) := by
  rw [memAddr_mem hrm]
  exact memRead_not_fits h

theorem memOperand_write {w : Nat} (v : BitVec w) (h : fits s (linearAddr s m) (w / 8) = false) :
    s.memWrite s.memAddr v = .error (accessFault s (linearAddr s m) (w / 8)) := by
  rw [memAddr_mem hrm]
  exact memWrite_not_fits v h

/-- A row that reads its r/m operand first. -/
theorem read_faults {w : Nat} {i : Instr} (acc : Access w) {k : BitVec w → Except Fault State}
    (hexec : exec i s = finish s (readRm acc s s.ops.rm >>= k)) (h : fits s (linearAddr s m) (w / 8) = false) :
    exec i s = .next (s.deliver (accessFault s (linearAddr s m) (w / 8))) :=
  exec_first_faults hexec (readRm_not_fits acc hrm h)

/-- A row that reads its memory operand first. -/
theorem memRead_faults {w : Nat} {i : Instr} {k : BitVec w → Except Fault State}
    (hexec : exec i s = finish s (s.memRead w s.memAddr >>= k)) (h : fits s (linearAddr s m) (w / 8) = false) :
    exec i s = .next (s.deliver (accessFault s (linearAddr s m) (w / 8))) :=
  exec_first_faults hexec (memOperand_read hrm h)

/-- A row that writes its memory operand first. -/
theorem memWrite_faults {w : Nat} {i : Instr} {v : BitVec w} {k : State → Except Fault State}
    (hexec : exec i s = finish s (s.memWrite s.memAddr v >>= k)) (h : fits s (linearAddr s m) (w / 8) = false) :
    exec i s = .next (s.deliver (accessFault s (linearAddr s m) (w / 8))) :=
  exec_first_faults hexec (memOperand_write hrm v h)

theorem sourceOf_not_fits {f : SrcForm} (h : fits s (linearAddr s m) f.bytes = false) :
    sourceOf f s = .error (accessFault s (linearAddr s m) f.bytes) := by
  have hread := fun {w : Nat} => memOperand_read hrm (w := w)
  cases f with
  | m32fp =>
    rw [sourceOf, srcM32fp, hread h]
    rfl
  | m64fp =>
    rw [sourceOf, srcM64fp, hread h]
    rfl
  | m32int =>
    rw [sourceOf, srcInt, hread h]
    rfl
  | m16int =>
    rw [sourceOf, srcInt, hread h]
    rfl

theorem store_faults {f : StoreForm} (h : fits s (linearAddr s m) f.bytes = false) :
    exec f.instr s = .next (s.deliver (accessFault s (linearAddr s m) f.bytes)) := by
  cases f
  case fstM32 => exact memWrite_faults (w := 32) hrm rfl h
  case fstM64 => exact memWrite_faults (w := 64) hrm rfl h
  case fstpM32 => exact memWrite_faults (w := 32) hrm rfl h
  case fstpM64 => exact memWrite_faults (w := 64) hrm rfl h
  case fstpM80 => exact memWrite_faults (w := 80) hrm rfl h
  case fistM16 => exact memWrite_faults (w := 16) hrm rfl h
  case fistM32 => exact memWrite_faults (w := 32) hrm rfl h
  case fistpM16 => exact memWrite_faults (w := 16) hrm rfl h
  case fistpM32 => exact memWrite_faults (w := 32) hrm rfl h
  case fistpM64 => exact memWrite_faults (w := 64) hrm rfl h
  case fnstcw => exact memWrite_faults (w := 16) hrm rfl h
  case fnstsw => exact memWrite_faults (w := 16) hrm rfl h

theorem load_faults {f : LoadForm} (hbytes : f.bytes ≠ 0) (h : fits s (linearAddr s m) f.bytes = false) :
    exec f.instr s = .next (s.deliver (accessFault s (linearAddr s m) f.bytes)) := by
  have hsrc : ∀ {w : Nat} {conv : BitVec w → State × F64}, fits s (linearAddr s m) (w / 8) = false →
      (s.memRead w s.memAddr >>= fun v => .ok (conv v)) = .error (accessFault s (linearAddr s m) (w / 8)) := fun h => by
    rw [memOperand_read hrm h]
    rfl
  cases f
  case m32fp => exact exec_first_faults (first := srcM32fp s) rfl (hsrc (w := 32) h)
  case m64fp => exact exec_first_faults (first := srcM64fp s) rfl (hsrc (w := 64) h)
  case m80fp => exact exec_first_faults (first := srcM80fp s) rfl (hsrc (w := 80) h)
  case m16int => exact exec_first_faults (first := srcInt 16 s) rfl (hsrc (w := 16) h)
  case m32int => exact exec_first_faults (first := srcInt 32 s) rfl (hsrc (w := 32) h)
  case m64int => exact exec_first_faults (first := srcInt 64 s) rfl (hsrc (w := 64) h)
  all_goals exact absurd rfl hbytes

theorem byteRows_fault (h : fits s (linearAddr s m) 1 = false) :
    ∀ i ∈ [Instr.movzxR32Rm8, .movsxR32Rm8, .mulRm8, .imulRm8, .divRm8, .idivRm8],
      exec i s = .next (s.deliver (accessFault s (linearAddr s m) 1)) := by
  have hrow := fun {i : Instr} {k : Byte → Except Fault State} => read_faults hrm acc8 (i := i) (k := k)
  simp only [List.forall_mem_cons]
  exact ⟨hrow rfl h, hrow rfl h, hrow rfl h, hrow rfl h, hrow rfl h, hrow rfl h, List.forall_mem_nil _⟩

theorem halfRows_fault (h : fits s (linearAddr s m) 2 = false) :
    ∀ i ∈ [Instr.movzxR32Rm16, .movsxR32Rm16, .fldcwM16],
      exec i s = .next (s.deliver (accessFault s (linearAddr s m) 2)) := by
  simp only [List.forall_mem_cons]
  exact ⟨read_faults hrm acc16 rfl h, read_faults hrm acc16 rfl h, memRead_faults (w := 16) hrm rfl h,
    List.forall_mem_nil _⟩

theorem wordRows_fault (h : fits s (linearAddr s m) 4 = false) :
    ∀ i ∈ [Instr.lesR32M, .ldsR32M, .lssR32M, .lfsR32M, .lgsR32M, .mulRm32, .imulRm32, .divRm32, .idivRm32,
        .imulR32Rm32, .imulR32Rm32Id, .imulR32Rm32Ib, .bsfR32Rm32, .bsrR32Rm32, .jmpRm32, .callRm32, .pushRm32],
      exec i s = .next (s.deliver (accessFault s (linearAddr s m) 4)) := by
  have hfar := fun {i : Instr} {k : Word → Except Fault State} => memRead_faults (w := 32) hrm (i := i) (k := k)
  have hrow := fun {i : Instr} {k : Word → Except Fault State} => read_faults hrm acc32 (i := i) (k := k)
  simp only [List.forall_mem_cons]
  exact ⟨hfar rfl h, hfar rfl h, hfar rfl h, hfar rfl h, hfar rfl h, hrow rfl h, hrow rfl h, hrow rfl h, hrow rfl h,
    hrow rfl h, hrow rfl h, hrow rfl h, hrow rfl h, hrow rfl h, hrow rfl h, hrow rfl h, hrow rfl h,
    List.forall_mem_nil _⟩

end

/-! ### Accesses of the stack -/

section
variable {s : State}

theorem push_faults {i : Instr} {v : Word} {k : State → Except Fault State}
    (hexec : exec i s = finish s (push32 s v >>= k)) (h : fits s (s.gpr 4 - 4) 4 = false) :
    exec i s = .next (s.deliver (accessFault s (s.gpr 4 - 4) 4)) :=
  exec_first_faults hexec (push32_not_fits v h)

theorem pop_faults {i : Instr} {k : Word × State → Except Fault State}
    (hexec : exec i s = finish s (pop32 s >>= k)) (h : fits s (s.gpr 4) 4 = false) :
    exec i s = .next (s.deliver (accessFault s (s.gpr 4) 4)) :=
  exec_first_faults hexec (pop32_not_fits h)

/-- The rows that push after reading an r/m operand that is permitted (R323, R347). -/
theorem pushAfterRead_faults (hrm : rmFits 32 s = true) (h : fits s (s.gpr 4 - 4) 4 = false) :
    ∀ i ∈ [Instr.pushRm32, .callRm32], exec i s = .next (s.deliver (accessFault s (s.gpr 4 - 4) 4)) := by
  simp only [List.forall_mem_cons]
  exact ⟨push_faults (congrArg (finish s) (pushRm_fits hrm)) h, push_faults (congrArg (finish s) (callRm_fits hrm)) h,
    List.forall_mem_nil _⟩

/-- POP r/m32, its destination formed with the advanced ESP (R325). -/
theorem popRm_faults {m : MemOp} (hrm : s.ops.rm = .mem m) (hpop : fits s (s.gpr 4) 4 = true)
    (h : fits s (linearAddr (s.setGpr 4 (s.gpr 4 + 4)) m) 4 = false) :
    exec .popRm32 s = .next (s.deliver (accessFault s (linearAddr (s.setGpr 4 (s.gpr 4 + 4)) m) 4)) := by
  have hwrite := writeRm_not_fits acc32 (s := s.setGpr 4 (s.gpr 4 + 4)) (BitVec.ofNat 32 (bytesAt s (s.gpr 4) 4)) hrm h
  refine exec_deliver (r := popRm s) rfl ?_
  rw [popRm_eq hpop]
  exact congrArg (Except.map State.complete) hwrite

end

theorem exec_fcomMemInstr (f : SrcForm) (pop : Bool) (s : State) :
    exec (fcomMemInstr f pop) s = finish s (if pop then fcompMem (sourceOf f) s else fcomMem (sourceOf f) s) := by
  cases f <;> cases pop <;> rfl

/-- Settles O60, the rows by the access that faults. -/
theorem operandFaults : Obligations.OperandFaults := by
  unfold Obligations.OperandFaults
  refine ⟨fun s m n hrm h => ?_, fun s => ?_⟩
  · intro faults
    refine ⟨?_, ?_, ?_, ?_, ?_, ?_, ?_, ?_, ?_, ?_, ?_, ?_, ?_⟩
    · rintro op f halib heaxid rfl
      exact exec_deliver (exec_aluInstr op f s) (aluForm_not_fits hrm halib heaxid h)
    · rintro p hp halib heaxid rfl
      exact exec_deliver (exec_testForm hp s) (testForm_not_fits hrm hp halib heaxid h)
    · rintro f hreg rfl
      exact ⟨exec_deliver (exec_incInstr f s) (unaryForm_not_fits hrm hreg h),
        exec_deliver (exec_decInstr f s) (unaryForm_not_fits hrm hreg h)⟩
    · rintro p hp rfl
      have hreg : p.2 ≠ .r32 := (show ∀ p ∈ negForms ++ notForms, p.2 ≠ .r32 by decide) p hp
      rcases List.mem_append.1 hp with hneg | hnot
      · exact exec_deliver (exec_negForm hneg s) (unaryForm_not_fits hrm hreg h)
      · exact exec_deliver (exec_notForm hnot s) (unaryForm_not_fits hrm hreg h)
    · rintro op wide c rfl
      exact exec_deliver (exec_shiftInstr op wide c s) (shiftRm_not_fits _ op _ hrm h)
    · rintro wide rfl
      simp only [List.forall_mem_cons]
      refine ⟨mov_faults (fun acc => storeRm acc s (acc.reg s s.ops.reg)) (by cases wide <;> rfl)
          (fun acc h => storeRm_not_fits acc _ hrm h) h,
        mov_faults (fun acc => loadRm acc s) (by cases wide <;> rfl) (fun acc h => loadRm_not_fits acc hrm h) h,
        mov_faults (fun acc => storeRm acc s (s.imm _)) (by cases wide <;> rfl)
          (fun acc h => storeRm_not_fits acc _ hrm h) h, List.forall_mem_nil _⟩
    · rintro rfl
      exact ⟨byteRows_fault hrm h, fun p hp => exec_deliver (exec_setcc s p hp).1 (storeRm_not_fits acc8 _ hrm h)⟩
    · rintro rfl
      exact halfRows_fault hrm h
    · rintro rfl
      exact ⟨wordRows_fault hrm h, fun p hp => read_faults hrm acc32 (exec_cmov s p hp).1 h⟩
    · rintro f rfl
      exact store_faults hrm h
    · rintro f hbytes rfl
      exact load_faults hrm hbytes h
    · rintro op f rfl
      exact exec_first_faults (exec_fpMem op f s) (sourceOf_not_fits hrm h)
    · rintro f pop rfl
      cases pop with
      | false => exact exec_first_faults (exec_fcomMemInstr f false s) (sourceOf_not_fits hrm h)
      | true => exact exec_first_faults (exec_fcomMemInstr f true s) (sourceOf_not_fits hrm h)
  · intro faults
    refine ⟨fun wide h => ?_, fun h => ⟨?_, fun hrm => pushAfterRead_faults hrm h⟩, fun h => ?_,
      fun hpop m hrm => popRm_faults hrm hpop, fun hrep op dword h => ?_, fun h => ?_, fun h => ?_, fun h => ?_⟩
    · simp only [List.forall_mem_cons]
      refine ⟨mov_faults (fun acc => loadMoffs acc s) (by cases wide <;> rfl) (fun acc h => ?_) h,
        mov_faults (fun acc => storeMoffs acc s) (by cases wide <;> rfl) (fun acc h => ?_) h, List.forall_mem_nil _⟩
      · rw [loadMoffs, memRead_not_fits h]
        rfl
      · rw [storeMoffs, memWrite_not_fits _ h]
        rfl
    · simp only [List.forall_mem_cons]
      exact ⟨push_faults rfl h, push_faults rfl h, push_faults rfl h, push_faults rfl h, List.forall_mem_nil _⟩
    · simp only [List.forall_mem_cons]
      exact ⟨pop_faults rfl h, pop_faults rfl h, pop_faults rfl h, pop_faults rfl h, List.forall_mem_nil _⟩
    · refine exec_deliver (exec_once op dword hrep) ?_
      rw [stringBody_not_fits op dword h]
      rfl
    · exact exec_first_faults rfl (memRead_not_fits (w := 32) h)
    · exact exec_first_faults rfl (memWrite_not_fits (pushadImage s) h)
    · exact exec_first_faults rfl (memRead_not_fits (w := 256) h)

end Sys2Proof.Proofs
end
